-- ==== Sys2Proof/Word.lean ====
section
/-!
DEFINITION. The data types of 00_scope.md R14 and R16: bytes, words, blocks, keys, the 4 x 4 state, the schedule.
A word is a vector of four bytes and never a number (20_memory.md R59).
-/

namespace Sys2Proof

/-- R14: an 8-bit unsigned value, bit 7 the most significant. -/
abbrev Byte := BitVec 8

/-- R16: `w[k]`, k = 0..3; `w[0]` is the source's byte0. -/
abbrev Word := Vector Byte 4

/-- R16: `blk[n]`, n = 0..15. A `Key` has the same shape. -/
abbrev Block := Vector Byte 16

/-- R16: `S[r][c]`, row first, column second. -/
abbrev StateMatrix := Vector (Vector Byte 4) 4

/-- R16: `W[i][k]`, i = 0..43, k = 0..3. -/
abbrev Schedule := Vector Word 44

/-- The state matrix whose byte at row r, column c is `f r c`. -/
def StateMatrix.ofFn (f : Fin 4 → Fin 4 → Byte) : StateMatrix :=
  Vector.ofFn fun r => Vector.ofFn fun c => f r c

end Sys2Proof
end

