-- ==== Sys2Proof/Config.lean ====
section
/-!
DEFINITION. The parameters of 00_scope.md R8 and R9 that validation compares with, and the values the spec leaves
open (R10, 42_key_schedule.md R142), which have no body: no proof can see what they are.
-/

namespace Sys2Proof

/-- The six registers that have no reset value (R42), which RESET_DATA fills: KEY, DIN, DOUT, STATE, RK and RC. -/
structure DataRegisters where
  key : Block
  din : Block
  dout : Block
  matrix : StateMatrix
  rk : Schedule
  rc : Byte
  deriving DecidableEq, Repr, Inhabited

namespace Config

/-- R26, R221: the key length, in bytes, that KEYLEN must declare. -/
def keyLength : Byte := 16

/-- R27, R221: the block length, in bytes, that BLKLEN must declare. -/
def blockLength : Byte := 16

/-- R28, R221: the schedule length, in words, that RKLEN must declare. -/
def scheduleLength : Byte := 44

/-- RESET_DATA (R10, R42, O3): `resetData d old` is what those registers hold after reset number `d`, when they held
`old` before it (`none`: nothing came before). A free value: "each bit may be 0 or 1, the values need not be the same after
two resets" (R42). It may keep the old contents and need not: a model "must both assume KEY and RK may still hold their old
contents after reset, and equally must not rely on it" (R302). Log entry 1. -/
opaque resetData : Nat → Option DataRegisters → DataRegisters

/-- `Rcon(0)` "is never used and is left undefined" (R142, 90_conflicts.md C8). A free value. Log entry 7. -/
opaque rconZero : Byte

end Config

end Sys2Proof
end

