-- ==== Sys2Proof/Syntax.lean ====
section
/-!
DEFINITION. The fourteen commands (30_encoding.md R82) and the operations of a host script (R90, R91).
-/

namespace Sys2Proof

/-- A command: one constructor per row of spec/opcode_table.json (R82). Every operand but ARK's round index is a
fixed register (R80). -/
inductive Instr where
  /-- R180: STATE <- ToState(DIN). -/
  | load
  /-- R181: DOUT <- FromState(STATE). -/
  | store
  /-- R182: STATE <- AddRoundKey(STATE, RK, r); `r` is the immediate field, legal for 0..10 (R81). -/
  | ark (r : BitVec 4)
  /-- R183: SubBytes. -/
  | sb
  /-- R184: ShiftRows. -/
  | sr
  /-- R185: MixColumns. -/
  | mc
  /-- R186: InvSubBytes. -/
  | isb
  /-- R187: InvShiftRows. -/
  | isr
  /-- R188: InvMixColumns. -/
  | imc
  /-- R149: RK <- Expand(KEY). -/
  | expand
  /-- R231: DOUT <- Encrypt(DIN, RK). -/
  | enc
  /-- R232: DOUT <- Decrypt(DIN, RK). -/
  | dec
  /-- R233: expand KEY, then encrypt DIN. -/
  | enck
  /-- R234: expand KEY, then decrypt DIN. -/
  | deck
  deriving DecidableEq, Repr

/-- One operation of the outside world on the core: a line of a host script (R90), the polling loop of R91, or the
reset input (70_reset_and_hazards.md R300). -/
inductive HostOp where
  /-- `WR a, v`: `MemWrite(a, 1, v)`. -/
  | wr (a v : Byte)
  /-- `RD a`: `MemRead(a, 1)`. -/
  | rd (a : Byte)
  /-- `WAIT`: repeat `RD STATUS` until BUSY reads 0. -/
  | wait
  /-- A rising edge of clk with rst high. -/
  | rst
  deriving DecidableEq, Repr

end Sys2Proof
end

