-- ==== Sys2Proof/WellFormed.lean ====
section
/-!
DEFINITION. Which terms of `Instr` are commands of the hardware. The one check there is: ARK's round index selects a
round key that exists, 0..10 (30_encoding.md R81, R84).
-/

namespace Sys2Proof

/-- R81: "The legal range is 0..10 …; values 11..15 select no round key". No other command has an operand. -/
def Instr.wellFormed : Instr → Bool
  | .ark r => decide (r ≤ 10#4)
  | .load => true
  | .store => true
  | .sb => true
  | .sr => true
  | .mc => true
  | .isb => true
  | .isr => true
  | .imc => true
  | .expand => true
  | .enc => true
  | .dec => true
  | .enck => true
  | .deck => true

end Sys2Proof
end

