-- ==== Sys2Proof/Decode.lean ====
section
/-!
DEFINITION. The command byte: its two fields (30_encoding.md R80), the total decoder `Decode : Byte -> Command | Illegal`
(R85) and the encoder, its inverse on the 24 legal bytes.
-/

namespace Sys2Proof

/-- Why a byte is no command: the cases of R84. -/
inductive IllegalReason where
  /-- `op` is 0x0 or 0xF. -/
  | opcodeUnassigned
  /-- ARK with `imm > 10`. -/
  | roundOutOfRange
  /-- `imm != 0` on a command without an operand. -/
  | immediateNotZero
  deriving DecidableEq, Repr

/-- R85: `Command | Illegal`. -/
inductive Decoded where
  | command (i : Instr)
  | illegal (why : IllegalReason)
  deriving DecidableEq, Repr

/-- R80: `op = v[7:4]`. -/
def opField (v : Byte) : BitVec 4 := v.extractLsb' 4 4

/-- R80: `imm = v[3:0]`. -/
def immField (v : Byte) : BitVec 4 := v.extractLsb' 0 4

/-- R85's `case op of`: the commands without an operand. 0x3 is ARK, which R85 takes before this table. -/
def plainCommand (op : BitVec 4) : Option Instr :=
  match op.toNat with
  | 0x1 => some .load
  | 0x2 => some .store
  | 0x4 => some .sb
  | 0x5 => some .sr
  | 0x6 => some .mc
  | 0x7 => some .isb
  | 0x8 => some .isr
  | 0x9 => some .imc
  | 0xA => some .expand
  | 0xB => some .enc
  | 0xC => some .dec
  | 0xD => some .enck
  | 0xE => some .deck
  | _ => none

/-- R85: the total decoder. Every byte is one of the 24 legal commands or is refused under its reason's name. -/
def decode (v : Byte) : Decoded :=
  if opField v = 0x3#4 then
    if immField v ≤ 10#4 then .command (.ark (immField v)) else .illegal .roundOutOfRange
  else if immField v ≠ 0#4 then .illegal .immediateNotZero
  else
    match plainCommand (opField v) with
    | some i => .command i
    | none => .illegal .opcodeUnassigned

/-- R82: the opcode column. -/
def Instr.opcode : Instr → BitVec 4
  | .load => 0x1
  | .store => 0x2
  | .ark _ => 0x3
  | .sb => 0x4
  | .sr => 0x5
  | .mc => 0x6
  | .isb => 0x7
  | .isr => 0x8
  | .imc => 0x9
  | .expand => 0xA
  | .enc => 0xB
  | .dec => 0xC
  | .enck => 0xD
  | .deck => 0xE

/-- R80: the immediate field; "must be 0 for every other command". -/
def Instr.immediate : Instr → BitVec 4
  | .ark r => r
  | .load | .store | .sb | .sr | .mc | .isb | .isr | .imc | .expand | .enc | .dec | .enck | .deck => 0

/-- R85: `Encode(ARK(r)) = 0x30 | r` and `Encode(c) = op(c) << 4` for every other command. -/
def encode (i : Instr) : Byte := i.opcode ++ i.immediate

/-- The instruction the decoder reads from a row of spec/opcode_table.json: a command is one byte (R86), so only
eight-bit words are instructions. -/
def decodeTableWord (nbits w : Nat) : Option Instr :=
  if nbits = 8 ∧ w < 256 then
    match decode (BitVec.ofNat 8 w) with
    | .command i => some i
    | .illegal _ => none
  else none

end Sys2Proof
end

