-- ==== Sys2Proof/Machine/State.lean ====
section
/-!
DEFINITION. The machine's state: the eleven elements of 10_state.md R20, and the model's own four fields (the host
script still to come, the pacing, the bytes the host has read, the number of resets); the reasons a step can stop;
the state after reset (R41, R42, 70_reset_and_hazards.md R301).
-/

namespace Sys2Proof.Machine

/-- R12: the two agents. -/
inductive Agent where
  | host
  | sequencer
  deriving DecidableEq, Repr

/-- How a submitted command is run. Log entry 4. -/
inductive Pacing where
  /-- R224: "each command as one atomic step". -/
  | whole
  /-- R222, R241: micro-step by micro-step; the list says which agent moves at the next steps taken while BUSY is 1.
  When it is used up the sequencer moves. -/
  | stepped (turns : List Agent)
  deriving DecidableEq, Repr

/-- R33: SEQ. `running c idx`: the command being run and the index of its next micro-step. It holds the command with
its immediate, since R33 lets the sequence of micro-steps depend on ARK's immediate (DEDUCED, log entry 2). -/
inductive SeqPos where
  | idle
  | running (c : Instr) (idx : Nat)
  deriving DecidableEq, Repr

/-- Why a step stops with a fault. -/
inductive Fault where
  /-- Raised by the sequencer's step when BUSY is 1 and SEQ names no micro-step of a micro-program. The spec gives
  such a state no behaviour and no run reaches it (R31, R33). Safe. Log entry 6. -/
  | sequencerOffProgram
  deriving DecidableEq, Repr

/-- Why a step is refused. -/
inductive Refusal where
  /-- Raised by exec's arm of an instruction that has no meaning yet. Safe. -/
  | notModelled (mnemonic : String)
  /-- Raised by a host access to address `a` other than a read of STATUS while BUSY is 1: "no behaviour defined by
  this spec. A model shall refuse" (70_reset_and_hazards.md R305). Safe. -/
  | hostAccessWhileBusy (a : Byte)
  deriving DecidableEq, Repr

/-- The state of the machine. -/
structure State where
  /-- R21: KEY. -/
  key : Block
  /-- R22: DIN. -/
  din : Block
  /-- R23: DOUT. -/
  dout : Block
  /-- R24: STATE, `S[r][c]`. -/
  matrix : StateMatrix
  /-- R25: RK, `W[i][k]`. -/
  rk : Schedule
  /-- R26: KEYLEN. -/
  keylen : Byte
  /-- R27: BLKLEN. -/
  blklen : Byte
  /-- R28: RKLEN. -/
  rklen : Byte
  /-- R30: STATUS. -/
  status : Byte
  /-- R33: SEQ. -/
  seq : SeqPos
  /-- R34: RC. -/
  rc : Byte
  /-- The model's own: the operations of the outside world still to come, in order. -/
  script : List HostOp
  /-- The model's own: how submitted commands are run. -/
  pacing : Pacing
  /-- The model's own: the bytes the host has read, oldest first (R90). -/
  reads : List Byte
  /-- The model's own: how many rst events have happened. -/
  resets : Nat
  deriving DecidableEq, Repr

/-- R301: the core right after the reset of number `count`, with RESET_DATA `data`. "Reset sets STATUS <- 0x00, SEQ <-
IDLE, KEYLEN <- 0x00, BLKLEN <- 0x00, RKLEN <- 0x00 … and leaves KEY, DIN, DOUT, STATE, RK and RC with unspecified
contents". The outside world has nothing to do yet and has read nothing. -/
def State.afterReset (data : DataRegisters) (count : Nat) : State where
  key := data.key
  din := data.din
  dout := data.dout
  matrix := data.matrix
  rk := data.rk
  keylen := 0x00
  blklen := 0x00
  rklen := 0x00
  status := 0x00
  seq := .idle
  rc := data.rc
  script := []
  pacing := .whole
  reads := []
  resets := count

/-- The machine right after reset: the first draw of RESET_DATA, with no contents before it (log entry 1). -/
def State.reset : State := State.afterReset (Config.resetData 0 none) 0

end Sys2Proof.Machine
end

