-- ==== Sys2Proof/Machine/Operands.lean ====
section
/-!
DEFINITION. Operand forms: the column-major correspondence of block and state (20_memory.md R57), ARK's round index
(30_encoding.md R81), the address map of the host register space (20_memory.md R51), the schedule's bytes (R58).
-/

namespace Sys2Proof.Machine

/-- R57: `S[r][c] = blk[r + 4c]`. -/
def toState (blk : Block) : StateMatrix := StateMatrix.ofFn fun r c => blk[r.val + 4 * c.val]

/-- R57: `blk[n] = S[n mod 4][n div 4]`. -/
def fromState (S : StateMatrix) : Block := Vector.ofFn fun n => (S[n.val % 4])[n.val / 4]

/-- R81: the round key that ARK's immediate selects; 11..15 select none. -/
def roundIndex (r : BitVec 4) : Option (Fin 11) := if h : r.toNat < 11 then some ⟨r.toNat, h⟩ else none

/-- R51: what stands at an address of the host register space. -/
inductive Location where
  | key (n : Fin 16)
  | din (n : Fin 16)
  | dout (n : Fin 16)
  | cmd
  | status
  | keylen
  | blklen
  | rklen
  | rk (i : Fin 44) (k : Fin 4)
  | reserved
  deriving DecidableEq, Repr

/-- R51, R58: the address map. -/
def locate (a : Byte) : Location :=
  if h : a.toNat < 0x10 then .key ⟨a.toNat, h⟩
  else if h : a.toNat < 0x20 then .din ⟨a.toNat - 0x10, by omega⟩
  else if h : a.toNat < 0x30 then .dout ⟨a.toNat - 0x20, by omega⟩
  else if a.toNat = 0x30 then .cmd
  else if a.toNat = 0x31 then .status
  else if a.toNat = 0x32 then .keylen
  else if a.toNat = 0x33 then .blklen
  else if a.toNat = 0x34 then .rklen
  else if h : 0x40 ≤ a.toNat ∧ a.toNat < 0xF0 then
    .rk ⟨(a.toNat - 0x40) / 4, by omega⟩ ⟨(a.toNat - 0x40) % 4, by omega⟩
  else .reserved

/-- R51, R90: the address that a register's name stands for. No name stands for a reserved address. -/
def Location.address : Location → Option Byte
  | .key n => some (BitVec.ofNat 8 n.val)
  | .din n => some (BitVec.ofNat 8 (0x10 + n.val))
  | .dout n => some (BitVec.ofNat 8 (0x20 + n.val))
  | .cmd => some 0x30
  | .status => some 0x31
  | .keylen => some 0x32
  | .blklen => some 0x33
  | .rklen => some 0x34
  | .rk i k => some (BitVec.ofNat 8 (0x40 + 4 * i.val + k.val))
  | .reserved => none

end Sys2Proof.Machine
end

