-- ==== Sys2Proof/Machine/GaloisField.lean ====
section
/-!
DEFINITION. Arithmetic in GF(2^8) with the reduction polynomial 0x11B (40_gf256.md). Addition is `^^^` (R101).
-/

namespace Sys2Proof.Machine

/-- R102: shift left by one; if the bit shifted out was 1, XOR with 0x1B. -/
def doubleInField (b : Byte) : Byte :=
  let shifted := b <<< 1
  if b.getLsbD 7 then shifted ^^^ 0x1B else shifted

/-- One turn of R103's loop: the accumulator and `t`, which is `a` doubled `k` times. -/
def multiplyStep (b : Byte) (p : Byte × Byte) (k : Nat) : Byte × Byte :=
  (if b.getLsbD k then p.1 ^^^ p.2 else p.1, doubleInField p.2)

/-- R103: the field product of `a` and `b`. -/
def multiply (a b : Byte) : Byte :=
  (([0, 1, 2, 3, 4, 5, 6, 7] : List Nat).foldl (multiplyStep b) (0x00, a)).1

end Sys2Proof.Machine
end

