-- ==== Sys2Proof/Machine/KeySchedule.lean ====
section
/-!
DEFINITION. The key-schedule expander as pure functions (42_key_schedule.md R140 to R146).
-/

namespace Sys2Proof.Machine

/-- R16: `(u ^ v)[k] = u[k] ^ v[k]`. -/
def xorWord (u v : Word) : Word := Vector.ofFn fun k => u[k] ^^^ v[k]

/-- R140: `out[k] = w[(k + 1) mod 4]`. -/
def rotWord (w : Word) : Word := Vector.ofFn fun k => w[(k.val + 1) % 4]'(Nat.mod_lt _ (by decide))

/-- R141: the forward S-box on each of the four bytes. -/
def subWord (w : Word) : Word := Vector.ofFn fun k => substitute w[k]

/-- R144: `temp[0] = temp[0] ^ rc`; bytes 1, 2, 3 are not changed (R142). -/
def xorByteZero (w : Word) (rc : Byte) : Word := w.set 0 (w[0] ^^^ rc)

/-- R142: the round constants, `Rcon(1) = 0x01`, doubled in the field at each step. `Rcon(0)` is left undefined: a
free value (log entry 7). -/
def rcon : Nat → Byte
  | 0 => Config.rconZero
  | 1 => 0x01
  | j + 2 => doubleInField (rcon (j + 1))

/-- R144: `W[i] = (key[4i], key[4i + 1], key[4i + 2], key[4i + 3])`, i = 0..3. -/
def keyWord (key : Block) (i : Fin 4) : Word := Vector.ofFn fun k => key[4 * i.val + k.val]

/-- R144, R150 `uKINIT`: words 0..3 of the schedule are the key's; the others are not touched. -/
def loadKeyWords (key : Block) (W : Schedule) : Schedule :=
  Vector.ofFn fun i => if h : i.val < 4 then keyWord key ⟨i.val, h⟩ else W[i]

/-- R144: is word `i = j + 4` one that rotates, substitutes and takes a round constant (`i mod 4 == 0`)? -/
def takesRoundConstant (j : Fin 40) : Bool := (j.val + 4) % 4 == 0

/-- R144: `temp` for word `i = j + 4`: rotate, then substitute, then XOR the constant into byte 0. -/
def scheduleTemp (rc : Byte) (j : Fin 40) (W : Schedule) : Word :=
  if takesRoundConstant j then xorByteZero (subWord (rotWord W[j.val + 3])) rc else W[j.val + 3]

/-- R144: `W[i] = W[i - 4] ^ temp` for word `i = j + 4`. -/
def expandWord (rc : Byte) (j : Fin 40) (W : Schedule) : Schedule :=
  W.set (j.val + 4) (xorWord W[j.val] (scheduleTemp rc j W))

/-- A schedule with every byte zero: what `expand` starts from and overwrites whole. -/
def zeroSchedule : Schedule := Vector.ofFn fun _ => Vector.ofFn fun _ => 0x00

/-- R144: `Expand(key)`: the four key words, then words 4..43 in increasing order. -/
def expand (key : Block) : Schedule :=
  (List.finRange 40).foldl (fun W j => expandWord (rcon ((j.val + 4) / 4)) j W) (loadKeyWords key zeroSchedule)

/-- R145: word `4r + c` of the schedule, the word of round key `r` for column `c`. -/
def roundKeyWord (W : Schedule) (r : Fin 11) (c : Fin 4) : Word := W[4 * r.val + c.val]

end Sys2Proof.Machine
end

