-- ==== Sys2Proof/Machine/RoundTransforms.lean ====
section
/-!
DEFINITION. The seven round transforms as pure functions on the 4 x 4 state (43_round_transforms.md R170 to R176).
Every new byte is computed from the old state (R178).
-/

namespace Sys2Proof.Machine

/-- R170: `S'[row][col] = S[row][col] ^ W[4r + col][row]`. -/
def addRoundKey (S : StateMatrix) (W : Schedule) (r : Fin 11) : StateMatrix :=
  StateMatrix.ofFn fun row col => (S[row])[col] ^^^ (roundKeyWord W r col)[row]

/-- R171. -/
def subBytes (S : StateMatrix) : StateMatrix := StateMatrix.ofFn fun r c => substitute (S[r])[c]

/-- R172. -/
def invSubBytes (S : StateMatrix) : StateMatrix := StateMatrix.ofFn fun r c => inverseSubstitute (S[r])[c]

/-- R173: `S'[r][c] = S[r][(c + r) mod 4]`. -/
def shiftRows (S : StateMatrix) : StateMatrix :=
  StateMatrix.ofFn fun r c => (S[r])[(c.val + r.val) % 4]'(Nat.mod_lt _ (by decide))

/-- R174: `S'[r][c] = S[r][(c - r) mod 4]`, the non-negative residue. -/
def invShiftRows (S : StateMatrix) : StateMatrix :=
  StateMatrix.ofFn fun r c => (S[r])[(c.val + (4 - r.val)) % 4]'(Nat.mod_lt _ (by decide))

/-- The matrix whose row `r` is `first` rotated right by `r` places: `M[r][c] = first[(c - r) mod 4]`. Both matrices of R8
are of this form; `mixMatrix_rows` and `invMixMatrix_rows` are their rows as R8 prints them. -/
def circulant (first : Word) : StateMatrix :=
  StateMatrix.ofFn fun r c => first[(c.val + (4 - r.val)) % 4]'(Nat.mod_lt _ (by decide))

/-- R8, R175: the forward mixing matrix, by its first row. -/
def mixMatrix : StateMatrix := circulant #v[2, 3, 1, 1]

/-- R8, R176: the inverse mixing matrix, by its first row. -/
def invMixMatrix : StateMatrix := circulant #v[14, 11, 13, 9]

/-- R175, R176: each column is multiplied from the left by the matrix `M` over GF(2^8). -/
def mixWith (M S : StateMatrix) : StateMatrix :=
  StateMatrix.ofFn fun r c =>
    multiply (M[r])[0] (S[0])[c] ^^^ multiply (M[r])[1] (S[1])[c] ^^^
      multiply (M[r])[2] (S[2])[c] ^^^ multiply (M[r])[3] (S[3])[c]

/-- R175. -/
def mixColumns (S : StateMatrix) : StateMatrix := mixWith mixMatrix S

/-- R176. -/
def invMixColumns (S : StateMatrix) : StateMatrix := mixWith invMixMatrix S

end Sys2Proof.Machine
end

