-- ==== Sys2Proof/Machine/Cipher.lean ====
section
/-!
DEFINITION. Encrypt and Decrypt as pure functions (44_cipher_sequencer.md R225, R226, R230).
-/

namespace Sys2Proof.Machine

/-- R225: rounds 1..9, in this order. -/
def encryptRounds : List (Fin 11) := [1, 2, 3, 4, 5, 6, 7, 8, 9]

/-- R225: one of rounds 1..9: SubBytes, ShiftRows, MixColumns, AddRoundKey(round). -/
def encryptRound (W : Schedule) (S : StateMatrix) (round : Fin 11) : StateMatrix :=
  addRoundKey (mixColumns (shiftRows (subBytes S))) W round

/-- R225, R227: the last round, without MixColumns. -/
def encryptLast (W : Schedule) (S : StateMatrix) : StateMatrix := addRoundKey (shiftRows (subBytes S)) W 10

/-- R225. -/
def encrypt (blk : Block) (W : Schedule) : Block :=
  fromState (encryptLast W (encryptRounds.foldl (encryptRound W) (addRoundKey (toState blk) W 0)))

/-- R226: rounds 9 downto 1. -/
def decryptRounds : List (Fin 11) := [9, 8, 7, 6, 5, 4, 3, 2, 1]

/-- R226: one of rounds 9..1: InvShiftRows, InvSubBytes, AddRoundKey(round), InvMixColumns. -/
def decryptRound (W : Schedule) (S : StateMatrix) (round : Fin 11) : StateMatrix :=
  invMixColumns (addRoundKey (invSubBytes (invShiftRows S)) W round)

/-- R226, R227: the last step, without InvMixColumns. -/
def decryptLast (W : Schedule) (S : StateMatrix) : StateMatrix := addRoundKey (invSubBytes (invShiftRows S)) W 0

/-- R226. -/
def decrypt (blk : Block) (W : Schedule) : Block :=
  fromState (decryptLast W (decryptRounds.foldl (decryptRound W) (addRoundKey (toState blk) W 10)))

/-- R230: `EncryptK(blk, key) = Encrypt(blk, Expand(key))`. -/
def encryptK (blk key : Block) : Block := encrypt blk (expand key)

/-- R230: `DecryptK(blk, key) = Decrypt(blk, Expand(key))`. -/
def decryptK (blk key : Block) : Block := decrypt blk (expand key)

end Sys2Proof.Machine
end

