-- ==== Sys2Proof/Machine/Flags.lean ====
section
/-!
DEFINITION. The STATUS register: its fields (10_state.md R30), its seven values (R31), the error codes
(60_exceptions.md R261).
-/

namespace Sys2Proof.Machine

/-- R30: bit 0. -/
def busyFlag (status : Byte) : Bool := status.getLsbD 0

/-- R30: bit 1. -/
def doneFlag (status : Byte) : Bool := status.getLsbD 1

/-- R30: bit 2. -/
def errFlag (status : Byte) : Bool := status.getLsbD 2

/-- R30: bits 6:4. -/
def ecodeField (status : Byte) : BitVec 3 := status.extractLsb' 4 3

/-- R261: the four errors. -/
inductive CommandError where
  | invalidKeyLength
  | invalidBlockLength
  | invalidScheduleLength
  | illegalCommand
  deriving DecidableEq, Repr

/-- R261: ECODE. -/
def CommandError.code : CommandError → Byte
  | .invalidKeyLength => 1
  | .invalidBlockLength => 2
  | .invalidScheduleLength => 3
  | .illegalCommand => 4

/-- R268: `(n << 4) | 0x04`: BUSY 0, DONE 0, ERR 1, ECODE n. -/
def errorStatus (e : CommandError) : Byte := (e.code <<< 4) ||| 0x04

/-- R31: after reset, before any command. -/
def resetStatus : Byte := 0x00

/-- R220: an accepted command is running. -/
def runningStatus : Byte := 0x01

/-- R223: the last command completed. -/
def completedStatus : Byte := 0x02

/-- R31: the only values STATUS ever holds. -/
def statusValues : List Byte :=
  [resetStatus, runningStatus, completedStatus, errorStatus .invalidKeyLength, errorStatus .invalidBlockLength,
    errorStatus .invalidScheduleLength, errorStatus .illegalCommand]

/-- R52: the `busy` output, "a copy of STATUS.BUSY". -/
def State.busy (s : State) : Bool := busyFlag s.status

end Sys2Proof.Machine
end

