-- ==== Sys2Proof/Machine/Ops.lean ====
section
/-!
DEFINITION. The named operations over the state: one update per field; validation (44_cipher_sequencer.md R221),
taking an error (60_exceptions.md R268) and completing (R223); running one command as one atomic step (R224); reads and
writes of the host register space (20_memory.md R53, R54); reset (70_reset_and_hazards.md R301).
-/

namespace Sys2Proof.Machine

/-! One update per field of the state; each changes that field alone (10_state.md R40). -/

def State.withKey (s : State) (v : Block) : State := { s with key := v }
def State.withDin (s : State) (v : Block) : State := { s with din := v }
def State.withDout (s : State) (v : Block) : State := { s with dout := v }
def State.withMatrix (s : State) (v : StateMatrix) : State := { s with matrix := v }
def State.withRk (s : State) (v : Schedule) : State := { s with rk := v }
def State.withKeylen (s : State) (v : Byte) : State := { s with keylen := v }
def State.withBlklen (s : State) (v : Byte) : State := { s with blklen := v }
def State.withRklen (s : State) (v : Byte) : State := { s with rklen := v }
def State.withStatus (s : State) (v : Byte) : State := { s with status := v }
def State.withSeq (s : State) (v : SeqPos) : State := { s with seq := v }
def State.withRc (s : State) (v : Byte) : State := { s with rc := v }
def State.withScript (s : State) (v : List HostOp) : State := { s with script := v }
def State.withPacing (s : State) (v : Pacing) : State := { s with pacing := v }
def State.withReads (s : State) (v : List Byte) : State := { s with reads := v }
def State.withResets (s : State) (v : Nat) : State := { s with resets := v }

/-- The result of a step of this machine. -/
abbrev Result := Host.Outcome State Fault Refusal

/-! Validation, error entry, completion. -/

/-- R221: "A check compares one length register with one constant, for equality." -/
inductive LengthCheck where
  | keyLength
  | blockLength
  | scheduleLength
  deriving DecidableEq, Repr

/-- R221, R26 to R28: does the check pass? -/
def LengthCheck.passes (s : State) : LengthCheck → Bool
  | .keyLength => s.keylen == Config.keyLength
  | .blockLength => s.blklen == Config.blockLength
  | .scheduleLength => s.rklen == Config.scheduleLength

/-- R262 to R264: the error of a check that fails. -/
def LengthCheck.error : LengthCheck → CommandError
  | .keyLength => .invalidKeyLength
  | .blockLength => .invalidBlockLength
  | .scheduleLength => .invalidScheduleLength

/-- R221: which length each command checks, in the order of R267. -/
def lengthChecks : Instr → List LengthCheck
  | .load => [.blockLength]
  | .ark _ => [.scheduleLength]
  | .expand => [.keyLength]
  | .enc | .dec => [.blockLength, .scheduleLength]
  | .enck | .deck => [.keyLength, .blockLength]
  | .store | .sb | .sr | .mc | .isb | .isr | .imc => []

/-- R220: the error of the first check that fails. -/
def firstFailure (s : State) (checks : List LengthCheck) : Option CommandError :=
  (checks.find? fun c => !c.passes s).map LengthCheck.error

/-- R220, R267: the error that rejects command `c`, if any. IllegalCommand comes first; a term of `Instr` that no legal
byte decodes to (ARK with a round above 10) is one (R182, log entry 10). -/
def rejection (c : Instr) (s : State) : Option CommandError :=
  if c.wellFormed then firstFailure s (lengthChecks c) else some .illegalCommand

/-- R268: `raise E`, the one way an exception is taken: STATUS <- (n << 4) | 0x04, "and nothing else". There is no
return operation: the next write to CMD overwrites STATUS (R269). -/
def raiseError (e : CommandError) (s : State) : State := s.withStatus (errorStatus e)

/-- R220: acceptance: STATUS <- 0x01, SEQ <- (c, 0). -/
def acceptCommand (c : Instr) (s : State) : State := (s.withStatus runningStatus).withSeq (.running c 0)

/-- R223: completion: STATUS <- 0x02, SEQ <- IDLE. -/
def completeCommand (s : State) : State := (s.withStatus completedStatus).withSeq .idle

/-- R224: command `c` as one atomic step whose data effect is `effect`. While BUSY is 1 a write to CMD has no
behaviour and is refused (R29, R305). A rejected command changes STATUS alone (R268). An accepted one always completes
(R223). -/
def runCommand (c : Instr) (effect : State → State) (s : State) : Result :=
  if s.busy then .refused (.hostAccessWhileBusy 0x30)
  else
    match rejection c s with
    | some e => .next (raiseError e s)
    | none => .next (completeCommand (effect s))

/-! The host register space. -/

/-- R53: the byte a host read finds at a location while BUSY is 0. CMD and reserved addresses read 0x00 (R55, R56). -/
def readLocation (s : State) : Location → Byte
  | .key n => s.key[n]
  | .din n => s.din[n]
  | .dout n => s.dout[n]
  | .cmd => 0x00
  | .status => s.status
  | .keylen => s.keylen
  | .blklen => s.blklen
  | .rklen => s.rklen
  | .rk i k => (s.rk[i])[k]
  | .reserved => 0x00

/-- R53: `MemRead(a, 1)` while BUSY is 0. -/
def readByte (s : State) (a : Byte) : Byte := readLocation s (locate a)

/-- R54: the effect of a host write while BUSY is 0, at any location but CMD: "it sets that byte to `v` and changes
nothing else"; at DOUT, STATUS or a reserved address "it is ignored". A write to CMD submits a command instead
(`submitCommand`) and has no effect of its own here, since CMD is no storage (R29). -/
def writeLocation (s : State) (v : Byte) : Location → State
  | .key n => s.withKey (s.key.set n.val v)
  | .din n => s.withDin (s.din.set n.val v)
  | .keylen => s.withKeylen v
  | .blklen => s.withBlklen v
  | .rklen => s.withRklen v
  | .rk i k => s.withRk (s.rk.set i.val ((s.rk[i]).set k.val v))
  | .dout _ | .cmd | .status | .reserved => s

/-- R54: `MemWrite(a, 1, v)` while BUSY is 0, at an address other than CMD's. -/
def writeByte (s : State) (a v : Byte) : State := writeLocation s v (locate a)

/-- The registers that have no reset value, as they stand (R42). -/
def State.dataRegisters (s : State) : DataRegisters where
  key := s.key
  din := s.din
  dout := s.dout
  matrix := s.matrix
  rk := s.rk
  rc := s.rc

/-- RESET_DATA of the next reset. A free value that may depend on what the registers hold (R302, log entry 1). -/
def State.nextResetData (s : State) : DataRegisters := Config.resetData (s.resets + 1) (some s.dataRegisters)

/-- R301, R302: a reset of the core, at any time, BUSY or not: the state after reset with a fresh draw of RESET_DATA.
The outside world is not reset: the script, the pacing and the bytes already read stay (log entry 9). -/
def applyReset (s : State) : State :=
  (((State.afterReset s.nextResetData (s.resets + 1)).withScript s.script).withPacing s.pacing).withReads s.reads

end Sys2Proof.Machine
end

