-- ==== Sys2Proof/Machine/CipherCommands.lean ====
section
/-!
DEFINITION. The five composite commands: EXPAND (42_key_schedule.md R149), ENC, DEC, ENCK, DECK
(44_cipher_sequencer.md R231 to R234).
-/

namespace Sys2Proof.Machine

/-- R34, R149: what RC holds after an expansion: `DoubleInField(0x36)`. -/
def finalRoundConstant : Byte := 0x6c

/-- R149: RK <- Expand(KEY), RKLEN <- 44, RC <- 0x6c. -/
def expandEffect (s : State) : State :=
  ((s.withRk (expand s.key)).withRklen Config.scheduleLength).withRc finalRoundConstant

/-- R231: DOUT <- Encrypt(DIN, RK), STATE <- ToState(DOUT). -/
def encEffect (s : State) : State :=
  (s.withDout (encrypt s.din s.rk)).withMatrix (toState (encrypt s.din s.rk))

/-- R232: DOUT <- Decrypt(DIN, RK), STATE <- ToState(DOUT). -/
def decEffect (s : State) : State :=
  (s.withDout (decrypt s.din s.rk)).withMatrix (toState (decrypt s.din s.rk))

/-- R233: "exactly that of EXPAND followed by ENC". The write of RC is R39's and R245's (log entry 8). -/
def enckEffect (s : State) : State := encEffect (expandEffect s)

/-- R234: EXPAND's effect, then DEC's. -/
def deckEffect (s : State) : State := decEffect (expandEffect s)

/-- R149. -/
def execExpand (s : State) : Result := runCommand .expand expandEffect s

/-- R231. -/
def execEnc (s : State) : Result := runCommand .enc encEffect s

/-- R232. -/
def execDec (s : State) : Result := runCommand .dec decEffect s

/-- R233. -/
def execEnck (s : State) : Result := runCommand .enck enckEffect s

/-- R234. -/
def execDeck (s : State) : Result := runCommand .deck deckEffect s

end Sys2Proof.Machine
end

