-- ==== Sys2Proof/Machine/StepCommands.lean ====
section
/-!
DEFINITION. The nine step commands (43_round_transforms.md R179 to R188): the data effect of each, which is also the
micro-operation of the same name (44_cipher_sequencer.md R240), and its meaning as a command.
-/

namespace Sys2Proof.Machine

/-- R180, `uLOAD`: STATE <- ToState(DIN). -/
def loadEffect (s : State) : State := s.withMatrix (toState s.din)

/-- R181, `uSTORE`: DOUT <- FromState(STATE). -/
def storeEffect (s : State) : State := s.withDout (fromState s.matrix)

/-- R182, `uARK(r)`: STATE <- AddRoundKey(STATE, RK, r). -/
def arkEffect (r : Fin 11) (s : State) : State := s.withMatrix (addRoundKey s.matrix s.rk r)

/-- R183, `uSB`. -/
def sbEffect (s : State) : State := s.withMatrix (subBytes s.matrix)

/-- R184, `uSR`. -/
def srEffect (s : State) : State := s.withMatrix (shiftRows s.matrix)

/-- R185, `uMC`. -/
def mcEffect (s : State) : State := s.withMatrix (mixColumns s.matrix)

/-- R186, `uISB`. -/
def isbEffect (s : State) : State := s.withMatrix (invSubBytes s.matrix)

/-- R187, `uISR`. -/
def isrEffect (s : State) : State := s.withMatrix (invShiftRows s.matrix)

/-- R188, `uIMC`. -/
def imcEffect (s : State) : State := s.withMatrix (invMixColumns s.matrix)

/-- R182: ARK's effect for an immediate. An immediate above 10 selects no round key; such a command is rejected before
this is reached (R84). -/
def arkImmediateEffect (r : BitVec 4) (s : State) : State :=
  match roundIndex r with
  | some round => arkEffect round s
  | none => s

/-- R180. -/
def execLoad (s : State) : Result := runCommand .load loadEffect s

/-- R181. -/
def execStore (s : State) : Result := runCommand .store storeEffect s

/-- R182. -/
def execArk (r : BitVec 4) (s : State) : Result := runCommand (.ark r) (arkImmediateEffect r) s

/-- R183. -/
def execSb (s : State) : Result := runCommand .sb sbEffect s

/-- R184. -/
def execSr (s : State) : Result := runCommand .sr srEffect s

/-- R185. -/
def execMc (s : State) : Result := runCommand .mc mcEffect s

/-- R186. -/
def execIsb (s : State) : Result := runCommand .isb isbEffect s

/-- R187. -/
def execIsr (s : State) : Result := runCommand .isr isrEffect s

/-- R188. -/
def execImc (s : State) : Result := runCommand .imc imcEffect s

end Sys2Proof.Machine
end

