-- ==== Sys2Proof/Machine/Dispatch.lean ====
section
/-!
DEFINITION. What each command does, one arm per constructor of Instr.
-/

namespace Sys2Proof.Machine

def exec (i : Instr) (s : State) : Host.Outcome State Fault Refusal :=
  match i with
  | .load => Sys2Proof.Machine.execLoad s
  | .store => Sys2Proof.Machine.execStore s
  | .ark r => Sys2Proof.Machine.execArk r s
  | .sb => Sys2Proof.Machine.execSb s
  | .sr => Sys2Proof.Machine.execSr s
  | .mc => Sys2Proof.Machine.execMc s
  | .isb => Sys2Proof.Machine.execIsb s
  | .isr => Sys2Proof.Machine.execIsr s
  | .imc => Sys2Proof.Machine.execImc s
  | .expand => Sys2Proof.Machine.execExpand s
  | .enc => Sys2Proof.Machine.execEnc s
  | .dec => Sys2Proof.Machine.execDec s
  | .enck => Sys2Proof.Machine.execEnck s
  | .deck => Sys2Proof.Machine.execDeck s

end Sys2Proof.Machine
end

