-- ==== Sys2Proof/Machine/Sequencer.lean ====
section
/-!
DEFINITION. The round sequencer at micro-step granularity (44_cipher_sequencer.md R220 to R223, R240 to R246;
42_key_schedule.md R150). It runs a command one micro-step at a time where the pacing asks for it.
-/

namespace Sys2Proof.Machine

/-- R240: the eleven micro-operations. -/
inductive MicroOp where
  | load
  | store
  | ark (r : Fin 11)
  | sb
  | sr
  | mc
  | isb
  | isr
  | imc
  /-- R150: `uKINIT`. -/
  | kinit
  /-- R150: `uKW(i)` for schedule word `i = j + 4`. -/
  | kw (j : Fin 40)
  deriving DecidableEq, Repr

/-- R150 `uKINIT`: words 0..3 are the key's, RC <- 0x01. -/
def kinitEffect (s : State) : State := (s.withRk (loadKeyWords s.key s.rk)).withRc 0x01

/-- R150: `uKW(4j)` doubles RC after using it; the others leave it. -/
def nextRoundConstant (j : Fin 40) (rc : Byte) : Byte := if takesRoundConstant j then doubleInField rc else rc

/-- R150 `uKW(i)`, `i = j + 4`. The step that finishes the expansion, `uKW(43)`, also sets RKLEN <- 44 (R241, R245). -/
def kwEffect (j : Fin 40) (s : State) : State :=
  let s' := (s.withRk (expandWord s.rc j s.rk)).withRc (nextRoundConstant j s.rc)
  if j.val = 39 then s'.withRklen Config.scheduleLength else s'

/-- R240: the data effect of a micro-operation. It is not validated (R241). -/
def microEffect : MicroOp → State → State
  | .load, s => loadEffect s
  | .store, s => storeEffect s
  | .ark r, s => arkEffect r s
  | .sb, s => sbEffect s
  | .sr, s => srEffect s
  | .mc, s => mcEffect s
  | .isb, s => isbEffect s
  | .isr, s => isrEffect s
  | .imc, s => imcEffect s
  | .kinit, s => kinitEffect s
  | .kw j, s => kwEffect j s

/-- R150, R242: EXPAND's 41 micro-operations. -/
def expandProgram : List MicroOp := .kinit :: (List.finRange 40).map .kw

/-- R243: rounds 1..9 of ENC. -/
def encRoundProgram (r : Fin 11) : List MicroOp := [.sb, .sr, .mc, .ark r]

/-- R243: ENC's 42 micro-operations. -/
def encProgram : List MicroOp :=
  [.load, .ark 0] ++ encryptRounds.flatMap encRoundProgram ++ [.sb, .sr, .ark 10, .store]

/-- R244: rounds 9..1 of DEC. -/
def decRoundProgram (r : Fin 11) : List MicroOp := [.isr, .isb, .ark r, .imc]

/-- R244: DEC's 42 micro-operations. -/
def decProgram : List MicroOp :=
  [.load, .ark 10] ++ decryptRounds.flatMap decRoundProgram ++ [.isr, .isb, .ark 0, .store]

/-- R242: ARK's one micro-operation; an immediate above 10 is no command and has no program. -/
def arkProgram (r : BitVec 4) : List MicroOp :=
  match roundIndex r with
  | some round => [.ark round]
  | none => []

/-- R242: the micro-program of each command. -/
def microProgram : Instr → List MicroOp
  | .load => [.load]
  | .store => [.store]
  | .ark r => arkProgram r
  | .sb => [.sb]
  | .sr => [.sr]
  | .mc => [.mc]
  | .isb => [.isb]
  | .isr => [.isr]
  | .imc => [.imc]
  | .expand => expandProgram
  | .enc => encProgram
  | .dec => decProgram
  | .enck => expandProgram ++ encProgram
  | .deck => expandProgram ++ decProgram

/-- R220: a command submitted to the sequencer: rejected, or accepted with no data effect yet. -/
def startCommand (c : Instr) (s : State) : Result :=
  if s.busy then .refused (.hostAccessWhileBusy 0x30)
  else
    match rejection c s with
    | some e => .next (raiseError e s)
    | none => .next (acceptCommand c s)

/-- R241: one micro-step. It applies the data effect, and completes in the same transition if it is the last (R223). A
SEQ that names no micro-step is a state the spec gives no behaviour (log entry 6). -/
def microStep (s : State) : Result :=
  match s.seq with
  | .idle => .fault .sequencerOffProgram
  | .running c idx =>
    match (microProgram c)[idx]? with
    | none => .fault .sequencerOffProgram
    | some u =>
      if idx + 1 = (microProgram c).length then .next (completeCommand (microEffect u s))
      else .next ((microEffect u s).withSeq (.running c (idx + 1)))

/-- `n` micro-steps in a row. -/
def microSteps : Nat → State → Result
  | 0, s => .next s
  | n + 1, s =>
    match microStep s with
    | .next s' => microSteps n s'
    | .fault r => .fault r
    | .refused r => .refused r

end Sys2Proof.Machine
end

