-- ==== Sys2Proof/Machine/HostAgent.lean ====
section
/-!
DEFINITION. The host agent: submitting a command (44_cipher_sequencer.md R220), bus accesses (20_memory.md R53, R54),
the refusal while BUSY (70_reset_and_hazards.md R305), the polling loop (30_encoding.md R91), reset (R300); and the two
kinds of turn that a step takes (00_scope.md R12).
-/

namespace Sys2Proof.Machine

/-- R220: a write of `v` to CMD while BUSY is 0: decode first, then run. Whether the command runs as one atomic step
(R224) or is only accepted here and run by later micro-steps (R222) is the pacing's (log entry 4). -/
def submitCommand (v : Byte) (s : State) : Result :=
  match decode v with
  | .illegal _ => .next (raiseError .illegalCommand s)
  | .command c =>
    match s.pacing with
    | .whole => exec c s
    | .stepped _ => startCommand c s

/-- R54, R305: `MemWrite(a, 1, v)`. -/
def hostWrite (a v : Byte) (s : State) : Result :=
  if s.busy then .refused (.hostAccessWhileBusy a)
  else if locate a = .cmd then submitCommand v s
  else .next (writeByte s a v)

/-- R53, R305: `MemRead(a, 1)`. While BUSY is 1 only STATUS can be read. The byte goes to the host; nothing in the core
changes. -/
def hostRead (a : Byte) (s : State) : Result :=
  if s.busy && locate a != .status then .refused (.hostAccessWhileBusy a)
  else .next (s.withReads (s.reads ++ [readByte s a]))

/-- R91: one poll of WAIT: read STATUS; while BUSY is 1 the WAIT stays the script's next operation; "the last byte read
is the script's status result" and is the one kept (log entry 11). -/
def hostWait (s : State) : Result :=
  if s.busy then .next (s.withScript (.wait :: s.script))
  else .next (s.withReads (s.reads ++ [s.status]))

/-- One operation of the outside world; the script has already moved past it. -/
def hostOp (op : HostOp) (s : State) : Result :=
  match op with
  | .wr a v => hostWrite a v s
  | .rd a => hostRead a s
  | .wait => hostWait s
  | .rst => .next (applyReset s)

/-- The host's turn: the next operation of the script. With none left nothing happens: "between commands the whole
state is constant except for host writes" (R63, log entry 13). -/
def hostTurn (s : State) : Result :=
  match s.script with
  | [] => .next s
  | op :: rest => hostOp op (s.withScript rest)

/-- The pacing after one of its turns has been used. -/
def Pacing.afterTurn : Pacing → Pacing
  | .whole => .whole
  | .stepped [] => .stepped []
  | .stepped (_ :: turns) => .stepped turns

/-- R12: who moves next. While BUSY is 0 the sequencer "does nothing"; while it is 1 the sequencer moves, unless the
pacing gives this turn to a host that has something to do. -/
def State.mover (s : State) : Agent :=
  if s.busy then
    match s.pacing, s.script with
    | .stepped (.host :: _), _ :: _ => .host
    | _, _ => .sequencer
  else .host

/-- While BUSY is 1 a step uses up one turn of the pacing. -/
def State.useTurn (s : State) : State := if s.busy then s.withPacing s.pacing.afterTurn else s

/-- One step of the agent that moves. -/
def agentStep (s : State) : Result :=
  match s.mover with
  | .host => hostTurn s.useTurn
  | .sequencer => microStep s.useTurn

/-- A core that is not running a command, so that a CMD write has a meaning (R29, R305): a busy one is made idle. Log
entry 12. -/
def State.madeIdle (s : State) : State := if s.busy then (s.withStatus resetStatus).withSeq .idle else s

/-- The script begins with a write of `v` to CMD, run as one atomic step. -/
def State.withCommandByte (s : State) (v : Byte) : State :=
  ((s.madeIdle).withPacing .whole).withScript (.wr 0x30 v :: s.script)

end Sys2Proof.Machine
end

