-- ==== Sys2Proof/Machine/Step.lean ====
section
/-!
DEFINITION. One step of the machine: one operation of the outside world, or one micro-step of the sequencer.
-/

namespace Sys2Proof.Machine

/-- One step: the agent that moves next (00_scope.md R12) takes its turn. -/
def step (s : State) : Host.Outcome State Fault Refusal := agentStep s

/-- The instruction of eight bits `w`, where the machine takes its next instruction from: the next operation of the
script writes that byte to CMD (R80, R220). A command is one byte, so the number of bits is not used (R86). -/
def State.withFetchWord (s : State) (_nbits w : Nat) : State := s.withCommandByte (BitVec.ofNat 8 w)

end Sys2Proof.Machine
end

