-- ==== Sys2Proof/Machine/HostScript.lean ====
section
/-!
DEFINITION. The host-script notation of 30_encoding.md R90 and R91: each pseudo-instruction expands to operations of
the outside world "and adds no capability".
-/

namespace Sys2Proof.Machine.Script

/-- R90: `CMD m` is `MemWrite(0x30, 1, Encode(m))`. -/
def cmd (m : Instr) : List HostOp := [.wr 0x30 (encode m)]

/-- R91: `RUN m`: `CMD m` then `WAIT`. -/
def run (m : Instr) : List HostOp := cmd m ++ [.wait]

/-- R91: `LDKEY h`: the 16 bytes to KEY+0 … KEY+15, then 0x10 to KEYLEN. -/
def ldkey (h : Block) : List HostOp :=
  (List.finRange 16).map (fun n => .wr (BitVec.ofNat 8 n.val) h[n]) ++ [.wr 0x32 0x10]

/-- R91: `LDBLK h`: the 16 bytes to DIN+0 … DIN+15, then 0x10 to BLKLEN. -/
def ldblk (h : Block) : List HostOp :=
  (List.finRange 16).map (fun n => .wr (BitVec.ofNat 8 (0x10 + n.val)) h[n]) ++ [.wr 0x33 0x10]

/-- R91: `LDRK h`: the 176 bytes to RK+0 … RK+175, then 0x2C to RKLEN. -/
def ldrk (h : Vector Byte 176) : List HostOp :=
  (List.finRange 176).map (fun m => .wr (BitVec.ofNat 8 (0x40 + m.val)) h[m]) ++ [.wr 0x34 0x2C]

/-- R91: `RDOUT`: DOUT+0 … DOUT+15. -/
def rdout : List HostOp := (List.finRange 16).map fun n => .rd (BitVec.ofNat 8 (0x20 + n.val))

/-- R91: `RDRK`: RK+0 … RK+175. -/
def rdrk : List HostOp := (List.finRange 176).map fun m => .rd (BitVec.ofNat 8 (0x40 + m.val))

/-- R91: `ENCRYPT k, p`: the source's `Encrypt(plaintextBlock, key)` (R92). -/
def encrypt (k p : Block) : List HostOp := ldkey k ++ ldblk p ++ run .enck ++ rdout

/-- R91: `DECRYPT k, c`: the source's `Decrypt(ciphertextBlock, key)` (R92). -/
def decrypt (k c : Block) : List HostOp := ldkey k ++ ldblk c ++ run .deck ++ rdout

end Sys2Proof.Machine.Script
end

