-- ==== Sys2Proof/Safety.lean ====
section
/-!
DEFINITION. What a good state is, in the terms the statements use: the STATUS protocol (10_state.md R31, R33), the
sequencer on its program (44_cipher_sequencer.md R242), the expansion in progress (42_key_schedule.md R150); and which
operations of the host have a meaning (70_reset_and_hazards.md R305).
-/

namespace Sys2Proof.Machine

/-- R31: STATUS holds one of its seven values. -/
def StatusLegal (s : State) : Prop := s.status ∈ statusValues

/-- R33: "`SEQ == IDLE` exactly when `STATUS.BUSY == 0`". -/
def SeqMatchesBusy (s : State) : Prop := s.seq = .idle ↔ s.busy = false

/-- R242, R273: a running command is a legal one, SEQ names one of its micro-steps, and the lengths it was accepted
with still hold. -/
def SeqOnProgram (s : State) : Prop :=
  match s.seq with
  | .idle => True
  | .running c idx =>
    c.wellFormed = true ∧ idx < (microProgram c).length ∧ firstFailure s (lengthChecks c) = none

/-- The invariant of every run: R31, R33, R242, R273. -/
structure Inv (s : State) : Prop where
  statusLegal : StatusLegal s
  seqMatchesBusy : SeqMatchesBusy s
  seqOnProgram : SeqOnProgram s

/-- R242: the commands whose micro-program begins with an expansion. -/
def expandsFirst : Instr → Bool
  | .expand | .enck | .deck => true
  | .load | .store | .ark _ | .sb | .sr | .mc | .isb | .isr | .imc | .enc | .dec => false

/-- Of the micro-steps before index `idx` of an expansion, how many doubled RC: `uKW(4)`, `uKW(8)`, … are at idx 1, 5,
…, 37 (R150). -/
def doublingsBefore (idx : Nat) : Nat := (min idx 41 + 2) / 4

/-- R34, R150, R245: while an expansion runs, or a cipher that began with one, once `uKINIT` is done: RC holds the
round constant next to be used, and the words of RK made so far (all 44 once the expansion is over) are those of
`Expand(KEY)`. -/
def ExpansionInv (s : State) : Prop :=
  match s.seq with
  | .idle => True
  | .running c idx =>
    expandsFirst c = true → 1 ≤ idx →
      s.rc = rcon (1 + doublingsBefore idx) ∧
        ∀ i : Fin 44, i.val < idx + 3 → s.rk[i] = (expand s.key)[i]

/-- R305: the operations of the outside world that have a meaning while BUSY is 1. -/
def meaningfulWhileBusy : HostOp → Bool
  | .wr _ _ => false
  | .rd a => a == 0x31
  | .wait => true
  | .rst => true

end Sys2Proof.Machine
end

