-- ==== Sys2Proof/Certificates/Slice0/Obligations.lean ====
section
/-!
DEFINITION. The statements for the provers. Each is about the machine, for every state and operand it names; the numbers
R<n> are the spec's rules. `s.busy = false` says that no command is running, the only time a command has a meaning
(70_reset_and_hazards.md R305). The script, in which a statement finds the host's next operation, and the pacing, which
says whether a command runs whole or micro-step by micro-step and whose turn it is, are the model's (log entries 3, 4).
-/

open Sys2Proof Sys2Proof.Machine

namespace Sys2Proof.Claims

/-! Words the statements share, written from the spec and not from the model's own definitions. -/

/-- R84, in the spec's own cases, with `op = v >> 4` and `imm = v & 0xF` as numbers. -/
def IllegalByte (v : Byte) : Prop :=
  v.toNat / 16 = 0x0 ∨ v.toNat / 16 = 0xF ∨ (v.toNat / 16 = 0x3 ∧ 10 < v.toNat % 16) ∨
    ((v.toNat / 16 = 0x1 ∨ v.toNat / 16 = 0x2 ∨ (0x4 ≤ v.toNat / 16 ∧ v.toNat / 16 ≤ 0xE)) ∧ v.toNat % 16 ≠ 0)

/-- The eleven elements of R20 are equal. -/
def SameCore (s t : State) : Prop :=
  s.key = t.key ∧ s.din = t.din ∧ s.dout = t.dout ∧ s.matrix = t.matrix ∧ s.rk = t.rk ∧ s.keylen = t.keylen ∧
    s.blklen = t.blklen ∧ s.rklen = t.rklen ∧ s.status = t.status ∧ s.seq = t.seq ∧ s.rc = t.rc

/-- R143: the ten round constants. -/
def roundConstants : Vector Byte 10 := #v[0x01, 0x02, 0x04, 0x08, 0x10, 0x20, 0x40, 0x80, 0x1b, 0x36]

/-- R144 and R146 as equations between the words of a schedule, with R143's table: word `i = j + 4`. -/
def IsExpansion (key : Block) (W : Schedule) : Prop :=
  (∀ i k : Fin 4, (W[i.val])[k] = key[4 * i.val + k.val]) ∧
    ∀ (j : Fin 40) (k : Fin 4),
      (W[j.val + 4])[k] =
        (W[j.val])[k] ^^^
          (if (j.val + 4) % 4 = 0 then
            substitute ((W[j.val + 3])[(k.val + 1) % 4]'(Nat.mod_lt _ (by decide))) ^^^
              (if k.val = 0 then roundConstants[j.val / 4] else 0x00)
          else (W[j.val + 3])[k])

/-- R51, R54: may the host write this address? -/
def HostWritable (a : Byte) : Prop :=
  a.toNat < 0x20 ∨ (0x32 ≤ a.toNat ∧ a.toNat ≤ 0x34) ∨ (0x40 ≤ a.toNat ∧ a.toNat < 0xF0)

/-- R221, byte by byte: the command bytes that are accepted, and the lengths they need. -/
def AcceptedByte (v : Byte) (s : State) : Prop :=
  (v = 0x10 ∧ s.blklen = 16) ∨
    v ∈ ([0x20, 0x40, 0x50, 0x60, 0x70, 0x80, 0x90] : List Byte) ∨
    (0x30 ≤ v.toNat ∧ v.toNat ≤ 0x3A ∧ s.rklen = 44) ∨
    (v = 0xA0 ∧ s.keylen = 16) ∨
    ((v = 0xB0 ∨ v = 0xC0) ∧ s.blklen = 16 ∧ s.rklen = 44) ∨
    ((v = 0xD0 ∨ v = 0xE0) ∧ s.keylen = 16 ∧ s.blklen = 16)

/-- R39, column STATE: the commands that write it. -/
def writesMatrix : Instr → Bool
  | .store | .expand => false
  | .load | .ark _ | .sb | .sr | .mc | .isb | .isr | .imc | .enc | .dec | .enck | .deck => true

/-- R39, column DOUT: the commands that write it. -/
def writesDout : Instr → Bool
  | .store | .enc | .dec | .enck | .deck => true
  | .load | .ark _ | .sb | .sr | .mc | .isb | .isr | .imc | .expand => false

end Sys2Proof.Claims

open Sys2Proof.Claims

/-! ## Encoding -/

/-- R85: the decoder's table, the encoder's two formulas, and that they are inverse to each other. -/
def Obligations.DecodeAndEncodeAgree : Prop :=
  (∀ r : BitVec 4, r.toNat ≤ 10 → decode (0x30#8 ||| r.zeroExtend 8) = .command (.ark r)) ∧
    (∀ c : Instr, c.wellFormed = true →
      encode c = (match c with
        | .ark r => 0x30#8 ||| r.zeroExtend 8
        | .load => 0x10 | .store => 0x20 | .sb => 0x40 | .sr => 0x50 | .mc => 0x60 | .isb => 0x70 | .isr => 0x80
        | .imc => 0x90 | .expand => 0xA0 | .enc => 0xB0 | .dec => 0xC0 | .enck => 0xD0 | .deck => 0xE0)) ∧
    (∀ c : Instr, c.wellFormed = true → decode (encode c) = .command c) ∧
    (∀ (v : Byte) (c : Instr), decode v = .command c → c.wellFormed = true ∧ encode c = v) ∧
    (∀ v : Byte, IllegalByte v ↔ ∀ c : Instr, decode v ≠ .command c)

/-- R82: the command bytes of the opcode map decode to their commands, and no byte but these 24 of the 256 is legal. -/
def Obligations.OpcodeMapWords : Prop :=
  decode 0x10 = .command .load ∧ decode 0x20 = .command .store ∧
    (∀ r : Fin 11, decode (BitVec.ofNat 8 (0x30 + r.val)) = .command (.ark (BitVec.ofNat 4 r.val))) ∧
    decode 0x40 = .command .sb ∧ decode 0x50 = .command .sr ∧
    decode 0x60 = .command .mc ∧ decode 0x70 = .command .isb ∧ decode 0x80 = .command .isr ∧
    decode 0x90 = .command .imc ∧ decode 0xA0 = .command .expand ∧ decode 0xB0 = .command .enc ∧
    decode 0xC0 = .command .dec ∧ decode 0xD0 = .command .enck ∧ decode 0xE0 = .command .deck ∧
    ((List.range 256).filter fun n => (decodeTableWord 8 n).isSome).length = 24

/-! ## Steps and commands -/

/-- R220, R224: with no command running, a write of a legal byte to CMD is, under the pacing that runs commands whole,
`exec` of the decoded command, at the state whose script has moved past the write; `withFetchWord` places such a write.
The pacing and `withFetchWord` are the model's choices (log entries 4, 12). -/
def Obligations.StepRunsDecodedCommand : Prop :=
  (∀ (s : State) (v : Byte) (rest : List HostOp) (c : Instr),
      s.busy = false → s.pacing = .whole → s.script = .wr 0x30 v :: rest → decode v = .command c →
        step s = exec c { s with script := rest }) ∧
    ∀ (s : State) (c : Instr), s.busy = false → c.wellFormed = true →
      step (s.withFetchWord 8 (encode c).toNat) = exec c { s with pacing := .whole }

/-- R220, R221: under the micro-step pacing, a write to CMD of a byte whose checks pass is accepted: STATUS 0x01, SEQ at
the command's first micro-step, no data effect yet; any other byte is rejected within the write itself, and STATUS alone
changes. That SEQ holds the command with its immediate is the model's choice (log entry 2). -/
def Obligations.AcceptanceStartsSequencer : Prop :=
  ∀ (s : State) (turns : List Agent) (v : Byte) (rest : List HostOp),
    s.busy = false → s.pacing = .stepped turns → s.script = .wr 0x30 v :: rest →
      (AcceptedByte v s → ∃ c : Instr, decode v = .command c ∧
        step s = .next { s with script := rest, status := 0x01, seq := .running c 0 }) ∧
      (¬ AcceptedByte v s → ∃ e : CommandError, step s = .next { s with script := rest, status := errorStatus e })

/-- R84, R265: exactly the bytes of R84's cases are illegal; one written to CMD sets STATUS to 0x44 and changes nothing
else, whatever the length registers hold. -/
def Obligations.IllegalByteRejected : Prop :=
  (∀ v : Byte, ¬ IllegalByte v → ∃ c : Instr, decode v = .command c) ∧
    ∀ (s : State) (v : Byte) (rest : List HostOp),
      IllegalByte v → s.busy = false → s.script = .wr 0x30 v :: rest →
        step s = .next { s with script := rest, status := 0x44 }

/-! ## Errors -/

/-- R268: error entry sets STATUS to `(n << 4) | 0x04` and changes nothing else; the four values are R261's. -/
def Obligations.ErrorEntryChangesStatusOnly : Prop :=
  (∀ (c : Instr) (s : State) (e : CommandError), s.busy = false → rejection c s = some e →
      exec c s = .next { s with status := (e.code <<< 4) ||| 0x04 }) ∧
    errorStatus .invalidKeyLength = 0x14 ∧ errorStatus .invalidBlockLength = 0x24 ∧
    errorStatus .invalidScheduleLength = 0x34 ∧ errorStatus .illegalCommand = 0x44

/-- R262: a write to CMD raises InvalidKeyLength exactly when its byte is that of EXPAND, ENCK or DECK and KEYLEN is not
16, whatever else the state holds: STATUS becomes 0x14 and nothing else changes. -/
def Obligations.InvalidKeyLengthCause : Prop :=
  ∀ (s : State) (v : Byte) (rest : List HostOp), s.busy = false → s.script = .wr 0x30 v :: rest →
    ((v = 0xA0 ∨ v = 0xD0 ∨ v = 0xE0) ∧ s.keylen ≠ 16 ↔ step s = .next { s with script := rest, status := 0x14 })

/-- R263: a write to CMD raises InvalidBlockLength exactly when its byte is that of LOAD, ENC, DEC, ENCK or DECK, BLKLEN is
not 16 and no error of higher priority applies (InvalidKeyLength for ENCK and DECK, R267). -/
def Obligations.InvalidBlockLengthCause : Prop :=
  ∀ (s : State) (v : Byte) (rest : List HostOp), s.busy = false → s.script = .wr 0x30 v :: rest →
    (((v = 0x10 ∨ v = 0xB0 ∨ v = 0xC0) ∨ ((v = 0xD0 ∨ v = 0xE0) ∧ s.keylen = 16)) ∧ s.blklen ≠ 16 ↔
      step s = .next { s with script := rest, status := 0x24 })

/-- R264: a write to CMD raises InvalidScheduleLength exactly when its byte is that of ARK r, ENC or DEC, RKLEN is not 44
and no error of higher priority applies (InvalidBlockLength for ENC and DEC, R267). -/
def Obligations.InvalidScheduleLengthCause : Prop :=
  ∀ (s : State) (v : Byte) (rest : List HostOp), s.busy = false → s.script = .wr 0x30 v :: rest →
    (((0x30 ≤ v.toNat ∧ v.toNat ≤ 0x3A) ∨ ((v = 0xB0 ∨ v = 0xC0) ∧ s.blklen = 16)) ∧ s.rklen ≠ 44 ↔
      step s = .next { s with script := rest, status := 0x34 })

/-- R269: an error leaves no trace on the next command: submitting any command after any error does what it does
without the error. -/
def Obligations.ErrorIsNotSticky : Prop :=
  ∀ (c : Instr) (s : State) (e : CommandError), s.busy = false →
    exec c (raiseError e s) = exec c s ∧ ∃ t, exec c s = .next t

/-- R30, R31: in each of the seven values of STATUS at most one of BUSY, DONE and ERR is 1, ECODE is not 0 exactly when
ERR is 1, ECODE is at most 4, and bits 3 and 7 are 0. -/
def Obligations.StatusFieldsConsistent : Prop :=
  statusValues = [0x00, 0x01, 0x02, 0x14, 0x24, 0x34, 0x44] ∧
    ∀ st ∈ statusValues,
      (busyFlag st && doneFlag st) = false ∧ (busyFlag st && errFlag st) = false ∧
        (doneFlag st && errFlag st) = false ∧ (ecodeField st ≠ 0 ↔ errFlag st = true) ∧ ecodeField st ≤ 4 ∧
        st.getLsbD 3 = false ∧ st.getLsbD 7 = false

/-! ## Step commands: result, frame and completion. Each conclusion is the whole next state. -/

/-- R180. -/
def Obligations.LoadResult : Prop :=
  encode .load = 0x10 ∧
    ∀ s : State, s.busy = false →
      (s.blklen = 16 → ∃ M : StateMatrix, (∀ r c : Fin 4, (M[r])[c] = s.din[r.val + 4 * c.val]) ∧
        exec .load s = .next { s with matrix := M, status := 0x02, seq := .idle }) ∧
      (s.blklen ≠ 16 → exec .load s = .next { s with status := 0x24 })

/-- R181. -/
def Obligations.StoreResult : Prop :=
  encode .store = 0x20 ∧
    ∀ s : State, s.busy = false →
      ∃ B : Block, (∀ n : Fin 16, B[n] = (s.matrix[n.val % 4])[n.val / 4]) ∧
        exec .store s = .next { s with dout := B, status := 0x02, seq := .idle }

/-- R182, with R170's formula. That `exec` of a term with an immediate above 10, which no byte decodes to, answers
IllegalCommand before any length is looked at is the model's choice (log entry 10); the byte's rejection is R84's and
R265's. -/
def Obligations.ArkResult : Prop :=
  ∀ s : State, s.busy = false →
    (∀ r : Fin 11,
      encode (.ark (BitVec.ofNat 4 r.val)) = 0x30#8 ||| BitVec.ofNat 8 r.val ∧
      (s.rklen = 44 →
        ∃ M : StateMatrix,
          (∀ row col : Fin 4, (M[row])[col] = (s.matrix[row])[col] ^^^ (s.rk[4 * r.val + col.val])[row]) ∧
          exec (.ark (BitVec.ofNat 4 r.val)) s = .next { s with matrix := M, status := 0x02, seq := .idle }) ∧
      (s.rklen ≠ 44 → exec (.ark (BitVec.ofNat 4 r.val)) s = .next { s with status := 0x34 })) ∧
    ∀ r : BitVec 4, 10 < r.toNat → exec (.ark r) s = .next { s with status := 0x44 }

/-- R183, R186, with the formulas of R171 and R172. -/
def Obligations.SubBytesCommandsResult : Prop :=
  encode .sb = 0x40 ∧ encode .isb = 0x70 ∧
    ∀ s : State, s.busy = false →
      (∃ M : StateMatrix, (∀ r c : Fin 4, (M[r])[c] = substitute (s.matrix[r])[c]) ∧
        exec .sb s = .next { s with matrix := M, status := 0x02, seq := .idle }) ∧
      ∃ M : StateMatrix, (∀ r c : Fin 4, (M[r])[c] = inverseSubstitute (s.matrix[r])[c]) ∧
        exec .isb s = .next { s with matrix := M, status := 0x02, seq := .idle }

/-- R184, R187, with the formulas of R173 and R174: the byte at column c moves to column `(c - r) mod 4`, and back. -/
def Obligations.ShiftRowsCommandsResult : Prop :=
  encode .sr = 0x50 ∧ encode .isr = 0x80 ∧
    ∀ s : State, s.busy = false →
      (∃ M : StateMatrix,
        (∀ r c : Fin 4, (M[r])[c] = (s.matrix[r])[(c.val + r.val) % 4]'(Nat.mod_lt _ (by decide))) ∧
        exec .sr s = .next { s with matrix := M, status := 0x02, seq := .idle }) ∧
      ∃ M : StateMatrix,
        (∀ r c : Fin 4, (M[r])[(c.val + r.val) % 4]'(Nat.mod_lt _ (by decide)) = (s.matrix[r])[c]) ∧
        exec .isr s = .next { s with matrix := M, status := 0x02, seq := .idle }

/-- R185, R188, with the row formulas of R175 and R176 written out. -/
def Obligations.MixColumnsCommandsResult : Prop :=
  encode .mc = 0x60 ∧ encode .imc = 0x90 ∧
    ∀ s : State, s.busy = false →
      (∃ M : StateMatrix,
        (∀ c : Fin 4,
          (M[0])[c] = multiply 2 (s.matrix[0])[c] ^^^ multiply 3 (s.matrix[1])[c] ^^^ (s.matrix[2])[c] ^^^ (s.matrix[3])[c] ∧
          (M[1])[c] = (s.matrix[0])[c] ^^^ multiply 2 (s.matrix[1])[c] ^^^ multiply 3 (s.matrix[2])[c] ^^^ (s.matrix[3])[c] ∧
          (M[2])[c] = (s.matrix[0])[c] ^^^ (s.matrix[1])[c] ^^^ multiply 2 (s.matrix[2])[c] ^^^ multiply 3 (s.matrix[3])[c] ∧
          (M[3])[c] = multiply 3 (s.matrix[0])[c] ^^^ (s.matrix[1])[c] ^^^ (s.matrix[2])[c] ^^^ multiply 2 (s.matrix[3])[c]) ∧
        exec .mc s = .next { s with matrix := M, status := 0x02, seq := .idle }) ∧
      ∃ M : StateMatrix,
        (∀ c : Fin 4,
          (M[0])[c] = multiply 14 (s.matrix[0])[c] ^^^ multiply 11 (s.matrix[1])[c] ^^^ multiply 13 (s.matrix[2])[c] ^^^ multiply 9 (s.matrix[3])[c] ∧
          (M[1])[c] = multiply 9 (s.matrix[0])[c] ^^^ multiply 14 (s.matrix[1])[c] ^^^ multiply 11 (s.matrix[2])[c] ^^^ multiply 13 (s.matrix[3])[c] ∧
          (M[2])[c] = multiply 13 (s.matrix[0])[c] ^^^ multiply 9 (s.matrix[1])[c] ^^^ multiply 14 (s.matrix[2])[c] ^^^ multiply 11 (s.matrix[3])[c] ∧
          (M[3])[c] = multiply 11 (s.matrix[0])[c] ^^^ multiply 13 (s.matrix[1])[c] ^^^ multiply 9 (s.matrix[2])[c] ^^^ multiply 14 (s.matrix[3])[c]) ∧
        exec .imc s = .next { s with matrix := M, status := 0x02, seq := .idle }

/-! ## Composite commands: result, frame and completion -/

/-- R149: RK becomes the schedule of R144's recurrence, RKLEN 44, RC 0x6c; nothing else but STATUS and SEQ changes. -/
def Obligations.ExpandResult : Prop :=
  encode .expand = 0xA0 ∧
    ∀ s : State, s.busy = false →
      (s.keylen = 16 → ∃ W : Schedule, IsExpansion s.key W ∧
        exec .expand s = .next { s with rk := W, rklen := 44, rc := 0x6c, status := 0x02, seq := .idle }) ∧
      (s.keylen ≠ 16 → exec .expand s = .next { s with status := 0x14 })

/-- R231. -/
def Obligations.EncResult : Prop :=
  encode .enc = 0xB0 ∧
    ∀ s : State, s.busy = false →
      (s.blklen = 16 → s.rklen = 44 →
        exec .enc s = .next { s with
          dout := encrypt s.din s.rk, matrix := toState (encrypt s.din s.rk), status := 0x02, seq := .idle }) ∧
      (s.blklen ≠ 16 → exec .enc s = .next { s with status := 0x24 }) ∧
      (s.blklen = 16 → s.rklen ≠ 44 → exec .enc s = .next { s with status := 0x34 })

/-- R232. -/
def Obligations.DecResult : Prop :=
  encode .dec = 0xC0 ∧
    ∀ s : State, s.busy = false →
      (s.blklen = 16 → s.rklen = 44 →
        exec .dec s = .next { s with
          dout := decrypt s.din s.rk, matrix := toState (decrypt s.din s.rk), status := 0x02, seq := .idle }) ∧
      (s.blklen ≠ 16 → exec .dec s = .next { s with status := 0x24 }) ∧
      (s.blklen = 16 → s.rklen ≠ 44 → exec .dec s = .next { s with status := 0x34 })

/-- R233, R234: ENCK and DECK, with R230's compositions. The new value of RC is R39's and R245's (log entry 8, the
model's inference: the pseudocode of R233 does not print it). -/
def Obligations.FusedCommandsResult : Prop :=
  encode .enck = 0xD0 ∧ encode .deck = 0xE0 ∧
    ∀ s : State, s.busy = false →
      (s.keylen = 16 → s.blklen = 16 →
        exec .enck s = .next { s with
          rk := expand s.key, rklen := 44, rc := 0x6c, dout := encryptK s.din s.key,
          matrix := toState (encryptK s.din s.key), status := 0x02, seq := .idle } ∧
        exec .deck s = .next { s with
          rk := expand s.key, rklen := 44, rc := 0x6c, dout := decryptK s.din s.key,
          matrix := toState (decryptK s.din s.key), status := 0x02, seq := .idle }) ∧
      (s.keylen ≠ 16 → exec .enck s = .next { s with status := 0x14 } ∧ exec .deck s = .next { s with status := 0x14 }) ∧
      (s.keylen = 16 → s.blklen ≠ 16 →
        exec .enck s = .next { s with status := 0x24 } ∧ exec .deck s = .next { s with status := 0x24 })

/-- R233: ENCK's "effect is exactly that of EXPAND followed by ENC, except that both validations come first"; and DECK's
that of EXPAND followed by DEC (R234). -/
def Obligations.FusedIsExpandThenCipher : Prop :=
  ∀ s t : State, s.keylen = 16 → s.blklen = 16 →
    (exec .enck s = .next t ↔ ∃ m, exec .expand s = .next m ∧ exec .enc m = .next t) ∧
      (exec .deck s = .next t ↔ ∃ m, exec .expand s = .next m ∧ exec .dec m = .next t)

/-! ## The cipher as a function -/

/-- R225: the order of the transforms of Encrypt, round by round: `S 0` is the state after AddRoundKey(0), `S r` the
state after round r. -/
def Obligations.EncryptSequence : Prop :=
  ∀ (blk : Block) (W : Schedule), ∃ S : Fin 11 → StateMatrix,
    S 0 = addRoundKey (toState blk) W 0 ∧
      (∀ r : Fin 11, 1 ≤ r.val → r.val ≤ 9 →
        S r = addRoundKey (mixColumns (shiftRows (subBytes (S (r - 1))))) W r) ∧
      S 10 = addRoundKey (shiftRows (subBytes (S 9))) W 10 ∧
      encrypt blk W = fromState (S 10)

/-- R226: the order of the transforms of Decrypt: `S 10` is the state after AddRoundKey(10), `S r` the state after
round r, counted down. -/
def Obligations.DecryptSequence : Prop :=
  ∀ (blk : Block) (W : Schedule), ∃ S : Fin 11 → StateMatrix,
    S 10 = addRoundKey (toState blk) W 10 ∧
      (∀ r : Fin 11, 1 ≤ r.val → r.val ≤ 9 →
        S r = invMixColumns (addRoundKey (invSubBytes (invShiftRows (S (r + 1)))) W r)) ∧
      S 0 = addRoundKey (invSubBytes (invShiftRows (S 1))) W 0 ∧
      decrypt blk W = fromState (S 0)

/-- R229: decryption inverts encryption, and conversely, for every 44-word schedule, and so for every key. -/
def Obligations.DecryptInvertsEncrypt : Prop :=
  (∀ (b : Block) (W : Schedule), decrypt (encrypt b W) W = b ∧ encrypt (decrypt b W) W = b) ∧
    ∀ b k : Block, decryptK (encryptK b k) k = b ∧ encryptK (decryptK b k) k = b

/-- R177: the inverse pairs, in both directions, for every state, schedule and round. -/
def Obligations.TransformsAreInversePairs : Prop :=
  ∀ (S : StateMatrix) (W : Schedule) (r : Fin 11),
    invSubBytes (subBytes S) = S ∧ subBytes (invSubBytes S) = S ∧
      invShiftRows (shiftRows S) = S ∧ shiftRows (invShiftRows S) = S ∧
      invMixColumns (mixColumns S) = S ∧ mixColumns (invMixColumns S) = S ∧
      addRoundKey (addRoundKey S W r) W r = S

/-- R57: the column-major correspondence and its two round trips. -/
def Obligations.ColumnMajorRoundTrip : Prop :=
  (∀ (b : Block) (r c : Fin 4), ((toState b)[r])[c] = b[r.val + 4 * c.val]) ∧
    (∀ (S : StateMatrix) (n : Fin 16), (fromState S)[n] = (S[n.val % 4])[n.val / 4]) ∧
    (∀ b : Block, fromState (toState b) = b) ∧ ∀ S : StateMatrix, toState (fromState S) = S

/-- R170, R173, R174 in block terms: adding a round key is a 16-byte XOR of the block with the round key's bytes in
address order; ShiftRows and InvShiftRows are the permutations P and Q of block bytes. -/
def Obligations.TransformsInBlockTerms : Prop :=
  ∀ (S : StateMatrix) (W : Schedule) (r : Fin 11) (n : Fin 16),
    (fromState (addRoundKey S W r))[n] = (fromState S)[n] ^^^ (W[4 * r.val + n.val / 4])[n.val % 4] ∧
      (fromState (shiftRows S))[n] =
        (fromState S)[(#v[0, 5, 10, 15, 4, 9, 14, 3, 8, 13, 2, 7, 12, 1, 6, 11] : Vector (Fin 16) 16)[n]] ∧
      (fromState (invShiftRows S))[n] =
        (fromState S)[(#v[0, 13, 10, 7, 4, 1, 14, 11, 8, 5, 2, 15, 12, 9, 6, 3] : Vector (Fin 16) 16)[n]]

/-- R189: the lanes of the transforms: a byte of SubBytes and InvSubBytes depends on that byte of the state alone, a byte of
AddRoundKey on that byte of the state and of the round key alone, a column of MixColumns and InvMixColumns on that column
of the state alone; ShiftRows and InvShiftRows move bytes within a row and change none. -/
def Obligations.TransformLanes : Prop :=
  ∀ (S T : StateMatrix) (V W : Schedule) (round : Fin 11) (c : Fin 4),
    (∀ r : Fin 4, (S[r])[c] = (T[r])[c] →
      ((subBytes S)[r])[c] = ((subBytes T)[r])[c] ∧ ((invSubBytes S)[r])[c] = ((invSubBytes T)[r])[c] ∧
        ((V[4 * round.val + c.val])[r] = (W[4 * round.val + c.val])[r] →
          ((addRoundKey S V round)[r])[c] = ((addRoundKey T W round)[r])[c])) ∧
      ((∀ r : Fin 4, (S[r])[c] = (T[r])[c]) → ∀ r : Fin 4,
        ((mixColumns S)[r])[c] = ((mixColumns T)[r])[c] ∧ ((invMixColumns S)[r])[c] = ((invMixColumns T)[r])[c]) ∧
      ∀ r : Fin 4, ∃ d e : Fin 4, ∀ U : StateMatrix,
        ((shiftRows U)[r])[c] = (U[r])[d] ∧ ((invShiftRows U)[r])[c] = (U[r])[e]

/-! ## The field, the tables, the key schedule -/

/-- R104: Multiply is commutative and associative, distributes over XOR, and 1 is its identity. -/
def Obligations.MultiplyLaws : Prop :=
  (∀ a b : Byte, multiply a b = multiply b a) ∧
    (∀ a b c : Byte, multiply (multiply a b) c = multiply a (multiply b c)) ∧
    (∀ a b c : Byte, multiply a (b ^^^ c) = multiply a b ^^^ multiply a c) ∧
    ∀ a : Byte, multiply a 1 = a

/-- R102, R105: doubling is multiplication by 2 and a bijection; the products by the seven matrix constants. -/
def Obligations.MatrixConstantProducts : Prop :=
  Function.Bijective doubleInField ∧
    ∀ a x2 x4 x8 : Byte, x2 = doubleInField a → x4 = doubleInField x2 → x8 = doubleInField x4 →
      multiply 0x01 a = a ∧ multiply 0x02 a = x2 ∧ multiply 0x03 a = x2 ^^^ a ∧ multiply 0x09 a = x8 ^^^ a ∧
        multiply 0x0B a = x8 ^^^ x2 ^^^ a ∧ multiply 0x0D a = x8 ^^^ x4 ^^^ a ∧ multiply 0x0E a = x8 ^^^ x4 ^^^ x2

/-- R125: each S-box lookup undoes the other on every byte. -/
def Obligations.SBoxesAreInverse : Prop :=
  (∀ b : Byte, inverseSubstitute (substitute b) = b) ∧ ∀ b : Byte, substitute (inverseSubstitute b) = b

/-- R126: every entry of SBOX is the affine map of the field inverse of its index (of 0 for index 0). -/
def Obligations.SBoxGeneratingDefinition : Prop :=
  ∀ b : Byte, ∃ x : Byte, (b = 0x00 ∧ x = 0x00 ∨ multiply b x = 0x01) ∧
    substitute b = x ^^^ x.rotateLeft 1 ^^^ x.rotateLeft 2 ^^^ x.rotateLeft 3 ^^^ x.rotateLeft 4 ^^^ 0x63

/-- R142, R143: the recurrence of the round constants and the ten that AES-128 uses. -/
def Obligations.RoundConstants : Prop :=
  rcon 1 = 0x01 ∧ (∀ j : Nat, 1 ≤ j → rcon (j + 1) = doubleInField (rcon j)) ∧
    ∀ j : Fin 10, rcon (j.val + 1) = roundConstants[j]

/-- R140, R141: RotWord moves byte 0 to position 3, byte 1 to 0, byte 2 to 1, byte 3 to 2; SubWord substitutes each byte;
the two commute and four rotations are the identity. -/
def Obligations.WordFunctions : Prop :=
  ∀ w : Word,
    rotWord w = #v[w[1], w[2], w[3], w[0]] ∧
      subWord w = #v[substitute w[0], substitute w[1], substitute w[2], substitute w[3]] ∧
      subWord (rotWord w) = rotWord (subWord w) ∧ rotWord (rotWord (rotWord (rotWord w))) = w

/-- R144, R146: Expand(key) is the one schedule that satisfies the recurrence. -/
def Obligations.ExpandIsTheRecurrence : Prop :=
  ∀ (key : Block) (W : Schedule), W = expand key ↔ IsExpansion key W

/-! ## The sequencer -/

/-- R247: from every state in which a command is accepted, running its micro-program to completion gives exactly the
state of its big-step rule. -/
def Obligations.MicroStepsAgreeWithBigStep : Prop :=
  ∀ (c : Instr) (s : State), s.busy = false → rejection c s = none →
    ∃ t, exec c s = .next t ∧ microSteps (microProgram c).length (acceptCommand c s) = .next t

/-- R246: from every good state that runs a command, at any micro-step, under any pacing. Where no turn is the host's (its
script is empty, or the pacing's turns are used up, or commands run whole), the core is BUSY before the last micro-step
left and complete, STATUS 0x02 and SEQ IDLE, right after it. Where the host polls in between, by STATUS reads and `WAIT`,
the command completes within as many steps as there are micro-steps and turns left, so that a `WAIT` always ends. -/
def Obligations.RunningCommandTerminates : Prop :=
  ∀ (s : State) (c : Instr) (idx : Nat), Inv s → s.seq = .running c idx →
    (s.script = [] ∨ s.pacing = .stepped [] ∨ s.pacing = .whole →
      (∀ m : Nat, m < (microProgram c).length - idx →
        ∃ u, Sys2Proof.core.run m s = .next u ∧ State.busy u = true) ∧
        ∃ t : State, Sys2Proof.core.run ((microProgram c).length - idx) s = .next t ∧ t.status = 0x02 ∧ t.seq = .idle) ∧
      ∀ turns : List Agent, s.pacing = .stepped turns → (∀ op ∈ s.script, op = .rd 0x31 ∨ op = .wait) →
        ∃ n : Nat, (microProgram c).length - idx ≤ n ∧ n ≤ (microProgram c).length - idx + turns.length ∧
          ∃ t : State, Sys2Proof.core.run n s = .next t ∧ t.status = 0x02 ∧ t.seq = .idle

/-- R150, R242, R243, R244, R245: the length of each legal command's micro-program, and which micro-operation stands at
each index. -/
def Obligations.MicroProgramTables : Prop :=
  (∀ c : Instr, c.wellFormed = true →
    (microProgram c).length = (match c with
      | .load | .store | .ark _ | .sb | .sr | .mc | .isb | .isr | .imc => 1
      | .expand => 41
      | .enc | .dec => 42
      | .enck | .deck => 83)) ∧
    (microProgram .load = [.load] ∧ microProgram .store = [.store] ∧
      (∀ r : Fin 11, microProgram (.ark (BitVec.ofNat 4 r.val)) = [.ark r]) ∧
      microProgram .sb = [.sb] ∧ microProgram .sr = [.sr] ∧ microProgram .mc = [.mc] ∧ microProgram .isb = [.isb] ∧
      microProgram .isr = [.isr] ∧ microProgram .imc = [.imc] ∧ microProgram .expand = expandProgram ∧
      microProgram .enc = encProgram ∧ microProgram .dec = decProgram) ∧
  (expandProgram[0]? = some .kinit ∧ ∀ j : Fin 40, expandProgram[1 + j.val]? = some (.kw j)) ∧
    (encProgram[0]? = some .load ∧ encProgram[1]? = some (.ark 0) ∧
      (∀ r : Fin 11, 1 ≤ r.val → r.val ≤ 9 →
        encProgram[2 + 4 * (r.val - 1)]? = some .sb ∧ encProgram[3 + 4 * (r.val - 1)]? = some .sr ∧
          encProgram[4 + 4 * (r.val - 1)]? = some .mc ∧ encProgram[5 + 4 * (r.val - 1)]? = some (.ark r)) ∧
      encProgram[38]? = some .sb ∧ encProgram[39]? = some .sr ∧ encProgram[40]? = some (.ark 10) ∧
      encProgram[41]? = some .store) ∧
    (decProgram[0]? = some .load ∧ decProgram[1]? = some (.ark 10) ∧
      (∀ r : Fin 11, 1 ≤ r.val → r.val ≤ 9 →
        decProgram[2 + 4 * (9 - r.val)]? = some .isr ∧ decProgram[3 + 4 * (9 - r.val)]? = some .isb ∧
          decProgram[4 + 4 * (9 - r.val)]? = some (.ark r) ∧ decProgram[5 + 4 * (9 - r.val)]? = some .imc) ∧
      decProgram[38]? = some .isr ∧ decProgram[39]? = some .isb ∧ decProgram[40]? = some (.ark 0) ∧
      decProgram[41]? = some .store) ∧
    ∀ n : Fin 42,
      (microProgram .enck)[n.val]? = (if n.val < 41 then expandProgram[n.val]? else encProgram[0]?) ∧
        (microProgram .enck)[41 + n.val]? = encProgram[n.val]? ∧
        (microProgram .deck)[n.val]? = (if n.val < 41 then expandProgram[n.val]? else decProgram[0]?) ∧
        (microProgram .deck)[41 + n.val]? = decProgram[n.val]?

/-- R150: the effects of the two micro-operations of key expansion, `uKINIT` and `uKW(i)` for `i = j + 4`; RKLEN is set by
the one that finishes the expansion (R241). -/
def Obligations.ExpansionMicroOps : Prop :=
  ∀ s : State,
    (∃ V : Schedule,
      (∀ i k : Fin 4, (V[i.val])[k] = s.key[4 * i.val + k.val]) ∧ (∀ i : Fin 44, 4 ≤ i.val → V[i] = s.rk[i]) ∧
        microEffect .kinit s = { s with rk := V, rc := 0x01 }) ∧
      ∀ j : Fin 40, ∃ V : Schedule,
        (∀ i : Fin 44, i.val ≠ j.val + 4 → V[i] = s.rk[i]) ∧
          (∀ k : Fin 4,
            (V[j.val + 4])[k] =
              (s.rk[j.val])[k] ^^^
                (if (j.val + 4) % 4 = 0 then
                  substitute ((s.rk[j.val + 3])[(k.val + 1) % 4]'(Nat.mod_lt _ (by decide))) ^^^
                    (if k.val = 0 then s.rc else 0x00)
                else (s.rk[j.val + 3])[k])) ∧
          microEffect (.kw j) s =
            { s with
              rk := V
              rc := if (j.val + 4) % 4 = 0 then doubleInField s.rc else s.rc
              rklen := if j.val + 4 = 43 then 44 else s.rklen }

/-- R241, R223: whenever a good state's next step is the sequencer's, under any pacing and with any script, it applies the
data effect of the running command's micro-operation and, in the same transition, advances SEQ by one or, at the last index,
completes: STATUS 0x02, SEQ IDLE. The pacing moves on by one turn (log entry 4). -/
def Obligations.MicroStepAdvancesByOne : Prop :=
  ∀ (s : State) (c : Instr) (idx : Nat), Inv s → s.seq = .running c idx → s.mover = .sequencer →
    ∃ u, (microProgram c)[idx]? = some u ∧
      (idx + 1 < (microProgram c).length →
        step s = .next { microEffect u s with seq := .running c (idx + 1), pacing := s.pacing.afterTurn }) ∧
      (idx + 1 = (microProgram c).length →
        step s = .next { microEffect u s with status := 0x02, seq := .idle, pacing := s.pacing.afterTurn })

/-- R64, R224: a host that only polls STATUS while its command runs, wherever its polls fall between the micro-steps,
finds after completion exactly the registers of the command's one atomic step. -/
def Obligations.PollingIsInvisible : Prop :=
  ∀ (c : Instr) (s t : State) (turns : List Agent) (polls : Nat),
    c.wellFormed = true → s.busy = false → s.pacing = .stepped turns →
      s.script = .wr 0x30 (encode c) :: List.replicate polls (.rd 0x31) →
      rejection c s = none → exec c s = .next t →
        ∃ (n : Nat) (u : State), Sys2Proof.core.run n s = .next u ∧ u.script = [] ∧ SameCore u t

/-! ## Invariants of every step -/

/-- The state right after every reset is good, whatever RESET_DATA is. -/
def Obligations.ResetStateIsGood : Prop :=
  ∀ (data : DataRegisters) (count : Nat),
    Inv (State.afterReset data count) ∧ ExpansionInv (State.afterReset data count)

/-- R31, R33, R242, R273: every step from a good state, with any script and pacing, leads to a good state: STATUS holds
one of its seven values, SEQ is IDLE exactly when BUSY is 0, SEQ is on the program of a legal command whose lengths
still hold. -/
def Obligations.StepKeepsInvariant : Prop :=
  ∀ s t : State, Inv s → step s = .next t → Inv t

/-- R34, R150, R245: every step from a good state keeps the expansion's invariant: RC holds the round constant to be used
next, and the words made so far are those of Expand(KEY), so that the schedule is whole before the first `uARK` reads
it. -/
def Obligations.StepKeepsExpansionInvariant : Prop :=
  ∀ s t : State, Inv s → ExpansionInv s → step s = .next t → ExpansionInv t

/-- R13, R305: from a good state no step faults, and the one refusal is a host access that has no meaning while BUSY is
1. -/
def Obligations.OnlyBusyAccessIsRefused : Prop :=
  ∀ s : State, Inv s →
    (∀ f, step s ≠ .fault f) ∧
      ∀ x, step s = .refused x →
        s.busy = true ∧ s.mover = .host ∧
          ∃ op rest a, s.script = op :: rest ∧ meaningfulWhileBusy op = false ∧ x = .hostAccessWhileBusy a

/-! ## The host register space -/

/-- R51, R53, R55, R56: what a host read returns, address by address, while BUSY is 0; that reading changes nothing in
the core; and that while BUSY is 1 a read of STATUS returns it, and any other is refused. -/
def Obligations.HostReads : Prop :=
  (∀ s : State,
    (∀ n : Fin 16,
      readByte s (BitVec.ofNat 8 n.val) = s.key[n] ∧ readByte s (BitVec.ofNat 8 (0x10 + n.val)) = s.din[n] ∧
        readByte s (BitVec.ofNat 8 (0x20 + n.val)) = s.dout[n]) ∧
      readByte s 0x30 = 0x00 ∧ readByte s 0x31 = s.status ∧ readByte s 0x32 = s.keylen ∧
      readByte s 0x33 = s.blklen ∧ readByte s 0x34 = s.rklen ∧
      (∀ (i : Fin 44) (k : Fin 4), readByte s (BitVec.ofNat 8 (0x40 + 4 * i.val + k.val)) = (s.rk[i])[k]) ∧
      ∀ a : Byte, (0x35 ≤ a.toNat ∧ a.toNat ≤ 0x3F) ∨ 0xF0 ≤ a.toNat → readByte s a = 0x00) ∧
    (∀ (s : State) (a : Byte) (rest : List HostOp), s.busy = false → s.script = .rd a :: rest →
      step s = .next { s with script := rest, reads := s.reads ++ [readByte s a] }) ∧
    ∀ (s : State) (a : Byte) (rest : List HostOp), s.status = 0x01 → s.mover = .host → s.script = .rd a :: rest →
      (a = 0x31 → step s = .next { s with
        script := rest, reads := s.reads ++ [0x01], pacing := s.pacing.afterTurn }) ∧
      (a ≠ 0x31 → step s = .refused (.hostAccessWhileBusy a))

/-- R54, R55, R56, R63: a host write at any address but CMD's, while BUSY is 0, sets that byte if the host may write it,
and changes no other byte of the register space and no hidden state; at DOUT, STATUS and reserved addresses it is
ignored. -/
def Obligations.HostWrites : Prop :=
  ∀ (s : State) (a v : Byte) (rest : List HostOp),
    s.busy = false → a ≠ 0x30 → s.script = .wr a v :: rest →
      ∃ t, step s = .next t ∧
        (∀ b : Byte, b ≠ a → readByte t b = readByte s b) ∧
        (HostWritable a → readByte t a = v) ∧
        (¬ HostWritable a → t = { s with script := rest }) ∧
        t.matrix = s.matrix ∧ t.seq = s.seq ∧ t.rc = s.rc ∧ t.script = rest ∧ t.pacing = s.pacing ∧
        t.reads = s.reads ∧ t.resets = s.resets

/-- R40, R55: no two addresses reach the same byte, and exactly 229 of the 256 are defined. -/
def Obligations.AddressMapHasNoAliasing : Prop :=
  (∀ a b : Byte, locate a ≠ .reserved → locate a = locate b → a = b) ∧
    (∀ l : Location, l ≠ .reserved → ∃ a, l.address = some a ∧ locate a = l) ∧
    ((List.range 256).filter fun n => locate (BitVec.ofNat 8 n) != .reserved).length = 229

/-- R305: while BUSY is 1, on the host's turn, a read of STATUS returns it and every other access, a write to any address
or a read of any other, is refused. -/
def Obligations.BusyAccessRefused : Prop :=
  ∀ (s : State) (a v : Byte) (rest : List HostOp), s.busy = true → s.mover = .host →
    (s.script = .rd 0x31 :: rest → step s = .next { s with
      script := rest, reads := s.reads ++ [s.status], pacing := s.pacing.afterTurn }) ∧
      (s.script = .wr a v :: rest → step s = .refused (.hostAccessWhileBusy a)) ∧
      (s.script = .rd a :: rest → a ≠ 0x31 → step s = .refused (.hostAccessWhileBusy a))

/-- R12, R63: while BUSY is 0 and the host does nothing, nothing changes (log entry 13). -/
def Obligations.IdleMachineIsConstant : Prop :=
  ∀ s : State, s.busy = false → s.script = [] → step s = .next s

/-- R91: `LDKEY h` and `LDBLK h` write the 16 bytes of KEY (of DIN) and 16 to KEYLEN (to BLKLEN), and nothing else. -/
def Obligations.LoadPseudoInstructions : Prop :=
  ∀ (s : State) (h : Block) (rest : List HostOp), s.busy = false →
    (s.script = Script.ldkey h ++ rest →
      Sys2Proof.core.run 17 s = .next { s with key := h, keylen := 0x10, script := rest }) ∧
      (s.script = Script.ldblk h ++ rest →
        Sys2Proof.core.run 17 s = .next { s with din := h, blklen := 0x10, script := rest })

/-- R91: one poll of `WAIT` on the host's turn: with BUSY 0 the STATUS byte is the script's next result; with BUSY 1
nothing in the core changes and the poll is repeated. `RUN m`, under the pacing that runs commands whole, is the command's
step followed by one such read. That only the last byte of a `WAIT` is kept is the model's choice (log entry 11). -/
def Obligations.WaitAndRun : Prop :=
  (∀ (s : State) (rest : List HostOp), s.mover = .host → s.script = .wait :: rest →
    (s.busy = false → step s = .next { s with script := rest, reads := s.reads ++ [s.status] }) ∧
      (s.busy = true → step s = .next { s with pacing := s.pacing.afterTurn })) ∧
    ∀ (s t : State) (c : Instr) (rest : List HostOp), c.wellFormed = true → s.busy = false → s.pacing = .whole →
      s.script = Script.run c ++ rest → exec c { s with script := .wait :: rest } = .next t →
        Sys2Proof.core.run 2 s = .next { t with script := rest, reads := t.reads ++ [t.status] }

/-- R91: `LDRK h` writes the 176 bytes of RK and 44 to RKLEN and nothing else; `RDRK` reads the 176 bytes of RK and
`RDOUT` the 16 of DOUT, in order, and change nothing in the core. -/
def Obligations.SchedulePseudoInstructions : Prop :=
  ∀ (s : State) (rest : List HostOp), s.busy = false →
    (∀ h : Vector Byte 176, s.script = Script.ldrk h ++ rest →
      ∃ W : Schedule, (∀ (i : Fin 44) (k : Fin 4), (W[i])[k] = h[4 * i.val + k.val]) ∧
        Sys2Proof.core.run 177 s = .next { s with rk := W, rklen := 0x2C, script := rest }) ∧
      (s.script = Script.rdrk ++ rest →
        Sys2Proof.core.run 176 s = .next { s with
          script := rest
          reads := s.reads ++ (List.finRange 176).map fun m => (s.rk[m.val / 4])[m.val % 4]'(Nat.mod_lt _ (by decide)) }) ∧
      (s.script = Script.rdout ++ rest →
        Sys2Proof.core.run 16 s = .next { s with script := rest, reads := s.reads ++ s.dout.toList })

/-- R91, R92: `ENCRYPT k, p` and `DECRYPT k, c`, from any state with no command running, under the pacing that runs
commands whole: 17 + 17 + 2 + 16 host operations whose result is STATUS 0x02 and then the block `EncryptK(p, k)`
(`DecryptK(c, k)`) of R230. -/
def Obligations.EncryptAndDecryptScripts : Prop :=
  ∀ (s : State) (k p : Block) (rest : List HostOp), s.busy = false → s.pacing = .whole →
    (s.script = Script.encrypt k p ++ rest →
      ∃ t : State, Sys2Proof.core.run 52 s = .next t ∧ t.reads = s.reads ++ 0x02 :: (encryptK p k).toList ∧
        t.script = rest ∧ t.dout = encryptK p k ∧ t.rk = expand k) ∧
      (s.script = Script.decrypt k p ++ rest →
        ∃ t : State, Sys2Proof.core.run 52 s = .next t ∧ t.reads = s.reads ++ 0x02 :: (decryptK p k).toList ∧
          t.script = rest ∧ t.dout = decryptK p k ∧ t.rk = expand k)

/-! ## Reset -/

/-- R41: the defined reset values, and that until the host supplies operands every command that needs one is rejected
with its error. -/
def Obligations.ResetValues : Prop :=
  ∀ (data : DataRegisters) (count : Nat) (s : State), s = State.afterReset data count →
    s.status = 0x00 ∧ s.seq = .idle ∧ s.keylen = 0x00 ∧ s.blklen = 0x00 ∧ s.rklen = 0x00 ∧
      (∀ c ∈ [Instr.expand, .enck, .deck], exec c s = .next { s with status := 0x14 }) ∧
      (∀ c ∈ [Instr.load, .enc, .dec], exec c s = .next { s with status := 0x24 }) ∧
      ∀ r : BitVec 4, r.toNat ≤ 10 → exec (.ark r) s = .next { s with status := 0x34 }

/-- R300, R301, R302: an rst on the host's turn, at any time, BUSY or not, abandons the running command and leaves STATUS
0x00, SEQ IDLE and the length registers 0x00. The data registers hold RESET_DATA, as `State.nextResetData` draws it: a free
value that may depend on what they held and on the number of the reset (the model's choice, log entry 1). That the outside
world keeps its script and what it has read is the model's choice too (log entry 9). -/
def Obligations.ResetAtAnyTime : Prop :=
  ∀ (s : State) (rest : List HostOp), s.mover = .host → s.script = .rst :: rest →
    ∃ t, step s = .next t ∧ SameCore t (State.afterReset s.nextResetData (s.resets + 1)) ∧ t.status = 0x00 ∧
      t.seq = .idle ∧ t.keylen = 0x00 ∧ t.blklen = 0x00 ∧ t.rklen = 0x00 ∧ t.script = rest ∧ t.reads = s.reads ∧
      t.resets = s.resets + 1

/-! ## Whole-machine frames -/

/-- R39, the W entries: what each command leaves alone, register by register and byte by byte of the register space; the
outside world's fields too. -/
def Obligations.AccessMatrixWrites : Prop :=
  ∀ (c : Instr) (s t : State), exec c s = .next t →
    t.key = s.key ∧ t.keylen = s.keylen ∧ t.din = s.din ∧ t.blklen = s.blklen ∧
      (writesMatrix c = false → t.matrix = s.matrix) ∧ (writesDout c = false → t.dout = s.dout) ∧
      (expandsFirst c = false → t.rk = s.rk ∧ t.rklen = s.rklen ∧ t.rc = s.rc) ∧
      t.script = s.script ∧ t.pacing = s.pacing ∧ t.reads = s.reads ∧ t.resets = s.resets ∧
      ∀ a : Byte, a ≠ 0x31 →
        (writesDout c = true → ¬ (0x20 ≤ a.toNat ∧ a.toNat < 0x30)) →
        (expandsFirst c = true → a ≠ 0x34 ∧ ¬ (0x40 ≤ a.toNat ∧ a.toNat < 0xF0)) →
          readByte t a = readByte s a

/-- R39, the R entries; R65: the data an accepted command produces is a function of the registers it reads and of
nothing else. -/
def Obligations.ResultsDependOnOperandsOnly : Prop :=
  ∀ (c : Instr) (s s' t t' : State), exec c s = .next t → exec c s' = .next t' →
    t.status = 0x02 → t'.status = 0x02 →
      (c = .load → s.din = s'.din → t.matrix = t'.matrix) ∧
      (c = .store → s.matrix = s'.matrix → t.dout = t'.dout) ∧
      (∀ r : Fin 11, c = .ark (BitVec.ofNat 4 r.val) → s.matrix = s'.matrix →
        (∀ k : Fin 4, s.rk[4 * r.val + k.val] = s'.rk[4 * r.val + k.val]) → t.matrix = t'.matrix) ∧
      (c ∈ [Instr.sb, .sr, .mc, .isb, .isr, .imc] → s.matrix = s'.matrix → t.matrix = t'.matrix) ∧
      (c = .expand → s.key = s'.key → t.rk = t'.rk ∧ t.rklen = t'.rklen ∧ t.rc = t'.rc) ∧
      (c = .enc ∨ c = .dec → s.din = s'.din → s.rk = s'.rk → t.dout = t'.dout ∧ t.matrix = t'.matrix) ∧
      (c = .enck ∨ c = .deck → s.key = s'.key → s.din = s'.din →
        t.dout = t'.dout ∧ t.matrix = t'.matrix ∧ t.rk = t'.rk ∧ t.rklen = t'.rklen ∧ t.rc = t'.rc)

/-- R21, R22, R26, R27: in any step of the machine, KEY, DIN, KEYLEN and BLKLEN change only by a host write to their
addresses while BUSY is 0, or by reset. -/
def Obligations.InputsChangeByHostOnly : Prop :=
  ∀ s t : State, step s = .next t → ¬ (∃ rest, s.mover = .host ∧ s.script = .rst :: rest) →
    (t.key ≠ s.key → s.busy = false ∧ ∃ a v rest, s.script = .wr a v :: rest ∧ a.toNat < 0x10) ∧
      (t.din ≠ s.din → s.busy = false ∧ ∃ a v rest, s.script = .wr a v :: rest ∧ 0x10 ≤ a.toNat ∧ a.toNat < 0x20) ∧
      (t.keylen ≠ s.keylen → s.busy = false ∧ ∃ v rest, s.script = .wr 0x32 v :: rest) ∧
      (t.blklen ≠ s.blklen → s.busy = false ∧ ∃ v rest, s.script = .wr 0x33 v :: rest)
end

