-- ==== Sys2Proof/Laws/State.lean ====
section
/-!
SUPPORT. One lemma per field per update of the state: each update changes its own field and no other.
-/

namespace Sys2Proof.Machine.State

variable (s : State)

/-! `withKey` -/

@[simp] theorem withKey_key (v : Block) : (s.withKey v).key = v := rfl
@[simp] theorem withKey_din (v : Block) : (s.withKey v).din = s.din := rfl
@[simp] theorem withKey_dout (v : Block) : (s.withKey v).dout = s.dout := rfl
@[simp] theorem withKey_matrix (v : Block) : (s.withKey v).matrix = s.matrix := rfl
@[simp] theorem withKey_rk (v : Block) : (s.withKey v).rk = s.rk := rfl
@[simp] theorem withKey_keylen (v : Block) : (s.withKey v).keylen = s.keylen := rfl
@[simp] theorem withKey_blklen (v : Block) : (s.withKey v).blklen = s.blklen := rfl
@[simp] theorem withKey_rklen (v : Block) : (s.withKey v).rklen = s.rklen := rfl
@[simp] theorem withKey_status (v : Block) : (s.withKey v).status = s.status := rfl
@[simp] theorem withKey_seq (v : Block) : (s.withKey v).seq = s.seq := rfl
@[simp] theorem withKey_rc (v : Block) : (s.withKey v).rc = s.rc := rfl
@[simp] theorem withKey_script (v : Block) : (s.withKey v).script = s.script := rfl
@[simp] theorem withKey_pacing (v : Block) : (s.withKey v).pacing = s.pacing := rfl
@[simp] theorem withKey_reads (v : Block) : (s.withKey v).reads = s.reads := rfl
@[simp] theorem withKey_resets (v : Block) : (s.withKey v).resets = s.resets := rfl

/-! `withDin` -/

@[simp] theorem withDin_key (v : Block) : (s.withDin v).key = s.key := rfl
@[simp] theorem withDin_din (v : Block) : (s.withDin v).din = v := rfl
@[simp] theorem withDin_dout (v : Block) : (s.withDin v).dout = s.dout := rfl
@[simp] theorem withDin_matrix (v : Block) : (s.withDin v).matrix = s.matrix := rfl
@[simp] theorem withDin_rk (v : Block) : (s.withDin v).rk = s.rk := rfl
@[simp] theorem withDin_keylen (v : Block) : (s.withDin v).keylen = s.keylen := rfl
@[simp] theorem withDin_blklen (v : Block) : (s.withDin v).blklen = s.blklen := rfl
@[simp] theorem withDin_rklen (v : Block) : (s.withDin v).rklen = s.rklen := rfl
@[simp] theorem withDin_status (v : Block) : (s.withDin v).status = s.status := rfl
@[simp] theorem withDin_seq (v : Block) : (s.withDin v).seq = s.seq := rfl
@[simp] theorem withDin_rc (v : Block) : (s.withDin v).rc = s.rc := rfl
@[simp] theorem withDin_script (v : Block) : (s.withDin v).script = s.script := rfl
@[simp] theorem withDin_pacing (v : Block) : (s.withDin v).pacing = s.pacing := rfl
@[simp] theorem withDin_reads (v : Block) : (s.withDin v).reads = s.reads := rfl
@[simp] theorem withDin_resets (v : Block) : (s.withDin v).resets = s.resets := rfl

/-! `withDout` -/

@[simp] theorem withDout_key (v : Block) : (s.withDout v).key = s.key := rfl
@[simp] theorem withDout_din (v : Block) : (s.withDout v).din = s.din := rfl
@[simp] theorem withDout_dout (v : Block) : (s.withDout v).dout = v := rfl
@[simp] theorem withDout_matrix (v : Block) : (s.withDout v).matrix = s.matrix := rfl
@[simp] theorem withDout_rk (v : Block) : (s.withDout v).rk = s.rk := rfl
@[simp] theorem withDout_keylen (v : Block) : (s.withDout v).keylen = s.keylen := rfl
@[simp] theorem withDout_blklen (v : Block) : (s.withDout v).blklen = s.blklen := rfl
@[simp] theorem withDout_rklen (v : Block) : (s.withDout v).rklen = s.rklen := rfl
@[simp] theorem withDout_status (v : Block) : (s.withDout v).status = s.status := rfl
@[simp] theorem withDout_seq (v : Block) : (s.withDout v).seq = s.seq := rfl
@[simp] theorem withDout_rc (v : Block) : (s.withDout v).rc = s.rc := rfl
@[simp] theorem withDout_script (v : Block) : (s.withDout v).script = s.script := rfl
@[simp] theorem withDout_pacing (v : Block) : (s.withDout v).pacing = s.pacing := rfl
@[simp] theorem withDout_reads (v : Block) : (s.withDout v).reads = s.reads := rfl
@[simp] theorem withDout_resets (v : Block) : (s.withDout v).resets = s.resets := rfl

/-! `withMatrix` -/

@[simp] theorem withMatrix_key (v : StateMatrix) : (s.withMatrix v).key = s.key := rfl
@[simp] theorem withMatrix_din (v : StateMatrix) : (s.withMatrix v).din = s.din := rfl
@[simp] theorem withMatrix_dout (v : StateMatrix) : (s.withMatrix v).dout = s.dout := rfl
@[simp] theorem withMatrix_matrix (v : StateMatrix) : (s.withMatrix v).matrix = v := rfl
@[simp] theorem withMatrix_rk (v : StateMatrix) : (s.withMatrix v).rk = s.rk := rfl
@[simp] theorem withMatrix_keylen (v : StateMatrix) : (s.withMatrix v).keylen = s.keylen := rfl
@[simp] theorem withMatrix_blklen (v : StateMatrix) : (s.withMatrix v).blklen = s.blklen := rfl
@[simp] theorem withMatrix_rklen (v : StateMatrix) : (s.withMatrix v).rklen = s.rklen := rfl
@[simp] theorem withMatrix_status (v : StateMatrix) : (s.withMatrix v).status = s.status := rfl
@[simp] theorem withMatrix_seq (v : StateMatrix) : (s.withMatrix v).seq = s.seq := rfl
@[simp] theorem withMatrix_rc (v : StateMatrix) : (s.withMatrix v).rc = s.rc := rfl
@[simp] theorem withMatrix_script (v : StateMatrix) : (s.withMatrix v).script = s.script := rfl
@[simp] theorem withMatrix_pacing (v : StateMatrix) : (s.withMatrix v).pacing = s.pacing := rfl
@[simp] theorem withMatrix_reads (v : StateMatrix) : (s.withMatrix v).reads = s.reads := rfl
@[simp] theorem withMatrix_resets (v : StateMatrix) : (s.withMatrix v).resets = s.resets := rfl

/-! `withRk` -/

@[simp] theorem withRk_key (v : Schedule) : (s.withRk v).key = s.key := rfl
@[simp] theorem withRk_din (v : Schedule) : (s.withRk v).din = s.din := rfl
@[simp] theorem withRk_dout (v : Schedule) : (s.withRk v).dout = s.dout := rfl
@[simp] theorem withRk_matrix (v : Schedule) : (s.withRk v).matrix = s.matrix := rfl
@[simp] theorem withRk_rk (v : Schedule) : (s.withRk v).rk = v := rfl
@[simp] theorem withRk_keylen (v : Schedule) : (s.withRk v).keylen = s.keylen := rfl
@[simp] theorem withRk_blklen (v : Schedule) : (s.withRk v).blklen = s.blklen := rfl
@[simp] theorem withRk_rklen (v : Schedule) : (s.withRk v).rklen = s.rklen := rfl
@[simp] theorem withRk_status (v : Schedule) : (s.withRk v).status = s.status := rfl
@[simp] theorem withRk_seq (v : Schedule) : (s.withRk v).seq = s.seq := rfl
@[simp] theorem withRk_rc (v : Schedule) : (s.withRk v).rc = s.rc := rfl
@[simp] theorem withRk_script (v : Schedule) : (s.withRk v).script = s.script := rfl
@[simp] theorem withRk_pacing (v : Schedule) : (s.withRk v).pacing = s.pacing := rfl
@[simp] theorem withRk_reads (v : Schedule) : (s.withRk v).reads = s.reads := rfl
@[simp] theorem withRk_resets (v : Schedule) : (s.withRk v).resets = s.resets := rfl

/-! `withKeylen` -/

@[simp] theorem withKeylen_key (v : Byte) : (s.withKeylen v).key = s.key := rfl
@[simp] theorem withKeylen_din (v : Byte) : (s.withKeylen v).din = s.din := rfl
@[simp] theorem withKeylen_dout (v : Byte) : (s.withKeylen v).dout = s.dout := rfl
@[simp] theorem withKeylen_matrix (v : Byte) : (s.withKeylen v).matrix = s.matrix := rfl
@[simp] theorem withKeylen_rk (v : Byte) : (s.withKeylen v).rk = s.rk := rfl
@[simp] theorem withKeylen_keylen (v : Byte) : (s.withKeylen v).keylen = v := rfl
@[simp] theorem withKeylen_blklen (v : Byte) : (s.withKeylen v).blklen = s.blklen := rfl
@[simp] theorem withKeylen_rklen (v : Byte) : (s.withKeylen v).rklen = s.rklen := rfl
@[simp] theorem withKeylen_status (v : Byte) : (s.withKeylen v).status = s.status := rfl
@[simp] theorem withKeylen_seq (v : Byte) : (s.withKeylen v).seq = s.seq := rfl
@[simp] theorem withKeylen_rc (v : Byte) : (s.withKeylen v).rc = s.rc := rfl
@[simp] theorem withKeylen_script (v : Byte) : (s.withKeylen v).script = s.script := rfl
@[simp] theorem withKeylen_pacing (v : Byte) : (s.withKeylen v).pacing = s.pacing := rfl
@[simp] theorem withKeylen_reads (v : Byte) : (s.withKeylen v).reads = s.reads := rfl
@[simp] theorem withKeylen_resets (v : Byte) : (s.withKeylen v).resets = s.resets := rfl

/-! `withBlklen` -/

@[simp] theorem withBlklen_key (v : Byte) : (s.withBlklen v).key = s.key := rfl
@[simp] theorem withBlklen_din (v : Byte) : (s.withBlklen v).din = s.din := rfl
@[simp] theorem withBlklen_dout (v : Byte) : (s.withBlklen v).dout = s.dout := rfl
@[simp] theorem withBlklen_matrix (v : Byte) : (s.withBlklen v).matrix = s.matrix := rfl
@[simp] theorem withBlklen_rk (v : Byte) : (s.withBlklen v).rk = s.rk := rfl
@[simp] theorem withBlklen_keylen (v : Byte) : (s.withBlklen v).keylen = s.keylen := rfl
@[simp] theorem withBlklen_blklen (v : Byte) : (s.withBlklen v).blklen = v := rfl
@[simp] theorem withBlklen_rklen (v : Byte) : (s.withBlklen v).rklen = s.rklen := rfl
@[simp] theorem withBlklen_status (v : Byte) : (s.withBlklen v).status = s.status := rfl
@[simp] theorem withBlklen_seq (v : Byte) : (s.withBlklen v).seq = s.seq := rfl
@[simp] theorem withBlklen_rc (v : Byte) : (s.withBlklen v).rc = s.rc := rfl
@[simp] theorem withBlklen_script (v : Byte) : (s.withBlklen v).script = s.script := rfl
@[simp] theorem withBlklen_pacing (v : Byte) : (s.withBlklen v).pacing = s.pacing := rfl
@[simp] theorem withBlklen_reads (v : Byte) : (s.withBlklen v).reads = s.reads := rfl
@[simp] theorem withBlklen_resets (v : Byte) : (s.withBlklen v).resets = s.resets := rfl

/-! `withRklen` -/

@[simp] theorem withRklen_key (v : Byte) : (s.withRklen v).key = s.key := rfl
@[simp] theorem withRklen_din (v : Byte) : (s.withRklen v).din = s.din := rfl
@[simp] theorem withRklen_dout (v : Byte) : (s.withRklen v).dout = s.dout := rfl
@[simp] theorem withRklen_matrix (v : Byte) : (s.withRklen v).matrix = s.matrix := rfl
@[simp] theorem withRklen_rk (v : Byte) : (s.withRklen v).rk = s.rk := rfl
@[simp] theorem withRklen_keylen (v : Byte) : (s.withRklen v).keylen = s.keylen := rfl
@[simp] theorem withRklen_blklen (v : Byte) : (s.withRklen v).blklen = s.blklen := rfl
@[simp] theorem withRklen_rklen (v : Byte) : (s.withRklen v).rklen = v := rfl
@[simp] theorem withRklen_status (v : Byte) : (s.withRklen v).status = s.status := rfl
@[simp] theorem withRklen_seq (v : Byte) : (s.withRklen v).seq = s.seq := rfl
@[simp] theorem withRklen_rc (v : Byte) : (s.withRklen v).rc = s.rc := rfl
@[simp] theorem withRklen_script (v : Byte) : (s.withRklen v).script = s.script := rfl
@[simp] theorem withRklen_pacing (v : Byte) : (s.withRklen v).pacing = s.pacing := rfl
@[simp] theorem withRklen_reads (v : Byte) : (s.withRklen v).reads = s.reads := rfl
@[simp] theorem withRklen_resets (v : Byte) : (s.withRklen v).resets = s.resets := rfl

/-! `withStatus` -/

@[simp] theorem withStatus_key (v : Byte) : (s.withStatus v).key = s.key := rfl
@[simp] theorem withStatus_din (v : Byte) : (s.withStatus v).din = s.din := rfl
@[simp] theorem withStatus_dout (v : Byte) : (s.withStatus v).dout = s.dout := rfl
@[simp] theorem withStatus_matrix (v : Byte) : (s.withStatus v).matrix = s.matrix := rfl
@[simp] theorem withStatus_rk (v : Byte) : (s.withStatus v).rk = s.rk := rfl
@[simp] theorem withStatus_keylen (v : Byte) : (s.withStatus v).keylen = s.keylen := rfl
@[simp] theorem withStatus_blklen (v : Byte) : (s.withStatus v).blklen = s.blklen := rfl
@[simp] theorem withStatus_rklen (v : Byte) : (s.withStatus v).rklen = s.rklen := rfl
@[simp] theorem withStatus_status (v : Byte) : (s.withStatus v).status = v := rfl
@[simp] theorem withStatus_seq (v : Byte) : (s.withStatus v).seq = s.seq := rfl
@[simp] theorem withStatus_rc (v : Byte) : (s.withStatus v).rc = s.rc := rfl
@[simp] theorem withStatus_script (v : Byte) : (s.withStatus v).script = s.script := rfl
@[simp] theorem withStatus_pacing (v : Byte) : (s.withStatus v).pacing = s.pacing := rfl
@[simp] theorem withStatus_reads (v : Byte) : (s.withStatus v).reads = s.reads := rfl
@[simp] theorem withStatus_resets (v : Byte) : (s.withStatus v).resets = s.resets := rfl

/-! `withSeq` -/

@[simp] theorem withSeq_key (v : SeqPos) : (s.withSeq v).key = s.key := rfl
@[simp] theorem withSeq_din (v : SeqPos) : (s.withSeq v).din = s.din := rfl
@[simp] theorem withSeq_dout (v : SeqPos) : (s.withSeq v).dout = s.dout := rfl
@[simp] theorem withSeq_matrix (v : SeqPos) : (s.withSeq v).matrix = s.matrix := rfl
@[simp] theorem withSeq_rk (v : SeqPos) : (s.withSeq v).rk = s.rk := rfl
@[simp] theorem withSeq_keylen (v : SeqPos) : (s.withSeq v).keylen = s.keylen := rfl
@[simp] theorem withSeq_blklen (v : SeqPos) : (s.withSeq v).blklen = s.blklen := rfl
@[simp] theorem withSeq_rklen (v : SeqPos) : (s.withSeq v).rklen = s.rklen := rfl
@[simp] theorem withSeq_status (v : SeqPos) : (s.withSeq v).status = s.status := rfl
@[simp] theorem withSeq_seq (v : SeqPos) : (s.withSeq v).seq = v := rfl
@[simp] theorem withSeq_rc (v : SeqPos) : (s.withSeq v).rc = s.rc := rfl
@[simp] theorem withSeq_script (v : SeqPos) : (s.withSeq v).script = s.script := rfl
@[simp] theorem withSeq_pacing (v : SeqPos) : (s.withSeq v).pacing = s.pacing := rfl
@[simp] theorem withSeq_reads (v : SeqPos) : (s.withSeq v).reads = s.reads := rfl
@[simp] theorem withSeq_resets (v : SeqPos) : (s.withSeq v).resets = s.resets := rfl

/-! `withRc` -/

@[simp] theorem withRc_key (v : Byte) : (s.withRc v).key = s.key := rfl
@[simp] theorem withRc_din (v : Byte) : (s.withRc v).din = s.din := rfl
@[simp] theorem withRc_dout (v : Byte) : (s.withRc v).dout = s.dout := rfl
@[simp] theorem withRc_matrix (v : Byte) : (s.withRc v).matrix = s.matrix := rfl
@[simp] theorem withRc_rk (v : Byte) : (s.withRc v).rk = s.rk := rfl
@[simp] theorem withRc_keylen (v : Byte) : (s.withRc v).keylen = s.keylen := rfl
@[simp] theorem withRc_blklen (v : Byte) : (s.withRc v).blklen = s.blklen := rfl
@[simp] theorem withRc_rklen (v : Byte) : (s.withRc v).rklen = s.rklen := rfl
@[simp] theorem withRc_status (v : Byte) : (s.withRc v).status = s.status := rfl
@[simp] theorem withRc_seq (v : Byte) : (s.withRc v).seq = s.seq := rfl
@[simp] theorem withRc_rc (v : Byte) : (s.withRc v).rc = v := rfl
@[simp] theorem withRc_script (v : Byte) : (s.withRc v).script = s.script := rfl
@[simp] theorem withRc_pacing (v : Byte) : (s.withRc v).pacing = s.pacing := rfl
@[simp] theorem withRc_reads (v : Byte) : (s.withRc v).reads = s.reads := rfl
@[simp] theorem withRc_resets (v : Byte) : (s.withRc v).resets = s.resets := rfl

/-! `withScript` -/

@[simp] theorem withScript_key (v : List HostOp) : (s.withScript v).key = s.key := rfl
@[simp] theorem withScript_din (v : List HostOp) : (s.withScript v).din = s.din := rfl
@[simp] theorem withScript_dout (v : List HostOp) : (s.withScript v).dout = s.dout := rfl
@[simp] theorem withScript_matrix (v : List HostOp) : (s.withScript v).matrix = s.matrix := rfl
@[simp] theorem withScript_rk (v : List HostOp) : (s.withScript v).rk = s.rk := rfl
@[simp] theorem withScript_keylen (v : List HostOp) : (s.withScript v).keylen = s.keylen := rfl
@[simp] theorem withScript_blklen (v : List HostOp) : (s.withScript v).blklen = s.blklen := rfl
@[simp] theorem withScript_rklen (v : List HostOp) : (s.withScript v).rklen = s.rklen := rfl
@[simp] theorem withScript_status (v : List HostOp) : (s.withScript v).status = s.status := rfl
@[simp] theorem withScript_seq (v : List HostOp) : (s.withScript v).seq = s.seq := rfl
@[simp] theorem withScript_rc (v : List HostOp) : (s.withScript v).rc = s.rc := rfl
@[simp] theorem withScript_script (v : List HostOp) : (s.withScript v).script = v := rfl
@[simp] theorem withScript_pacing (v : List HostOp) : (s.withScript v).pacing = s.pacing := rfl
@[simp] theorem withScript_reads (v : List HostOp) : (s.withScript v).reads = s.reads := rfl
@[simp] theorem withScript_resets (v : List HostOp) : (s.withScript v).resets = s.resets := rfl

/-! `withPacing` -/

@[simp] theorem withPacing_key (v : Pacing) : (s.withPacing v).key = s.key := rfl
@[simp] theorem withPacing_din (v : Pacing) : (s.withPacing v).din = s.din := rfl
@[simp] theorem withPacing_dout (v : Pacing) : (s.withPacing v).dout = s.dout := rfl
@[simp] theorem withPacing_matrix (v : Pacing) : (s.withPacing v).matrix = s.matrix := rfl
@[simp] theorem withPacing_rk (v : Pacing) : (s.withPacing v).rk = s.rk := rfl
@[simp] theorem withPacing_keylen (v : Pacing) : (s.withPacing v).keylen = s.keylen := rfl
@[simp] theorem withPacing_blklen (v : Pacing) : (s.withPacing v).blklen = s.blklen := rfl
@[simp] theorem withPacing_rklen (v : Pacing) : (s.withPacing v).rklen = s.rklen := rfl
@[simp] theorem withPacing_status (v : Pacing) : (s.withPacing v).status = s.status := rfl
@[simp] theorem withPacing_seq (v : Pacing) : (s.withPacing v).seq = s.seq := rfl
@[simp] theorem withPacing_rc (v : Pacing) : (s.withPacing v).rc = s.rc := rfl
@[simp] theorem withPacing_script (v : Pacing) : (s.withPacing v).script = s.script := rfl
@[simp] theorem withPacing_pacing (v : Pacing) : (s.withPacing v).pacing = v := rfl
@[simp] theorem withPacing_reads (v : Pacing) : (s.withPacing v).reads = s.reads := rfl
@[simp] theorem withPacing_resets (v : Pacing) : (s.withPacing v).resets = s.resets := rfl

/-! `withReads` -/

@[simp] theorem withReads_key (v : List Byte) : (s.withReads v).key = s.key := rfl
@[simp] theorem withReads_din (v : List Byte) : (s.withReads v).din = s.din := rfl
@[simp] theorem withReads_dout (v : List Byte) : (s.withReads v).dout = s.dout := rfl
@[simp] theorem withReads_matrix (v : List Byte) : (s.withReads v).matrix = s.matrix := rfl
@[simp] theorem withReads_rk (v : List Byte) : (s.withReads v).rk = s.rk := rfl
@[simp] theorem withReads_keylen (v : List Byte) : (s.withReads v).keylen = s.keylen := rfl
@[simp] theorem withReads_blklen (v : List Byte) : (s.withReads v).blklen = s.blklen := rfl
@[simp] theorem withReads_rklen (v : List Byte) : (s.withReads v).rklen = s.rklen := rfl
@[simp] theorem withReads_status (v : List Byte) : (s.withReads v).status = s.status := rfl
@[simp] theorem withReads_seq (v : List Byte) : (s.withReads v).seq = s.seq := rfl
@[simp] theorem withReads_rc (v : List Byte) : (s.withReads v).rc = s.rc := rfl
@[simp] theorem withReads_script (v : List Byte) : (s.withReads v).script = s.script := rfl
@[simp] theorem withReads_pacing (v : List Byte) : (s.withReads v).pacing = s.pacing := rfl
@[simp] theorem withReads_reads (v : List Byte) : (s.withReads v).reads = v := rfl
@[simp] theorem withReads_resets (v : List Byte) : (s.withReads v).resets = s.resets := rfl

/-! `withResets` -/

@[simp] theorem withResets_key (v : Nat) : (s.withResets v).key = s.key := rfl
@[simp] theorem withResets_din (v : Nat) : (s.withResets v).din = s.din := rfl
@[simp] theorem withResets_dout (v : Nat) : (s.withResets v).dout = s.dout := rfl
@[simp] theorem withResets_matrix (v : Nat) : (s.withResets v).matrix = s.matrix := rfl
@[simp] theorem withResets_rk (v : Nat) : (s.withResets v).rk = s.rk := rfl
@[simp] theorem withResets_keylen (v : Nat) : (s.withResets v).keylen = s.keylen := rfl
@[simp] theorem withResets_blklen (v : Nat) : (s.withResets v).blklen = s.blklen := rfl
@[simp] theorem withResets_rklen (v : Nat) : (s.withResets v).rklen = s.rklen := rfl
@[simp] theorem withResets_status (v : Nat) : (s.withResets v).status = s.status := rfl
@[simp] theorem withResets_seq (v : Nat) : (s.withResets v).seq = s.seq := rfl
@[simp] theorem withResets_rc (v : Nat) : (s.withResets v).rc = s.rc := rfl
@[simp] theorem withResets_script (v : Nat) : (s.withResets v).script = s.script := rfl
@[simp] theorem withResets_pacing (v : Nat) : (s.withResets v).pacing = s.pacing := rfl
@[simp] theorem withResets_reads (v : Nat) : (s.withResets v).reads = s.reads := rfl
@[simp] theorem withResets_resets (v : Nat) : (s.withResets v).resets = v := rfl

/-! Whether BUSY is 1 depends on STATUS alone (10_state.md R30, R52). -/

@[simp] theorem withKey_busy (v : Block) : (s.withKey v).busy = s.busy := rfl
@[simp] theorem withDin_busy (v : Block) : (s.withDin v).busy = s.busy := rfl
@[simp] theorem withDout_busy (v : Block) : (s.withDout v).busy = s.busy := rfl
@[simp] theorem withMatrix_busy (v : StateMatrix) : (s.withMatrix v).busy = s.busy := rfl
@[simp] theorem withRk_busy (v : Schedule) : (s.withRk v).busy = s.busy := rfl
@[simp] theorem withKeylen_busy (v : Byte) : (s.withKeylen v).busy = s.busy := rfl
@[simp] theorem withBlklen_busy (v : Byte) : (s.withBlklen v).busy = s.busy := rfl
@[simp] theorem withRklen_busy (v : Byte) : (s.withRklen v).busy = s.busy := rfl
@[simp] theorem withStatus_busy (v : Byte) : (s.withStatus v).busy = busyFlag v := rfl
@[simp] theorem withSeq_busy (v : SeqPos) : (s.withSeq v).busy = s.busy := rfl
@[simp] theorem withRc_busy (v : Byte) : (s.withRc v).busy = s.busy := rfl
@[simp] theorem withScript_busy (v : List HostOp) : (s.withScript v).busy = s.busy := rfl
@[simp] theorem withPacing_busy (v : Pacing) : (s.withPacing v).busy = s.busy := rfl
@[simp] theorem withReads_busy (v : List Byte) : (s.withReads v).busy = s.busy := rfl
@[simp] theorem withResets_busy (v : Nat) : (s.withResets v).busy = s.busy := rfl

end Sys2Proof.Machine.State
end

