-- ==== Sys2Proof/Laws/Ops.lean ====
section
/-!
SUPPORT. What each shared operation can do, said once: validation, running one command, and exec as a whole.
-/

namespace Sys2Proof.Machine

variable (s : State)

/-! STATUS values (10_state.md R31). -/

@[simp] theorem busyFlag_completed : busyFlag completedStatus = false := rfl
@[simp] theorem busyFlag_running : busyFlag runningStatus = true := rfl
@[simp] theorem busyFlag_reset : busyFlag resetStatus = false := rfl
@[simp] theorem busyFlag_error (e : CommandError) : busyFlag (errorStatus e) = false := by cases e <;> rfl
@[simp] theorem errFlag_error (e : CommandError) : errFlag (errorStatus e) = true := by cases e <;> rfl

theorem errorStatus_injective {e f : CommandError} (h : errorStatus e = errorStatus f) : e = f := by
  revert h; cases e <;> cases f <;> decide

theorem errorStatus_ne_completed (e : CommandError) : errorStatus e ≠ completedStatus := by cases e <;> decide

/-! Error entry, acceptance and completion change STATUS and SEQ alone (60_exceptions.md R268, R220, R223). -/

theorem raiseError_eq (e : CommandError) : raiseError e s = { s with status := errorStatus e } := rfl
theorem acceptCommand_eq (c : Instr) :
    acceptCommand c s = { s with status := runningStatus, seq := .running c 0 } := rfl
theorem completeCommand_eq : completeCommand s = { s with status := completedStatus, seq := .idle } := rfl

/-! Validation (44_cipher_sequencer.md R221). -/

@[simp] theorem firstFailure_nil : firstFailure s [] = none := rfl

@[simp] theorem firstFailure_cons (c : LengthCheck) (cs : List LengthCheck) :
    firstFailure s (c :: cs) = if c.passes s then firstFailure s cs else some c.error := by
  cases h : c.passes s <;> simp [firstFailure, h]

@[simp] theorem keyLength_passes : LengthCheck.keyLength.passes s = (s.keylen == Config.keyLength) := rfl
@[simp] theorem blockLength_passes : LengthCheck.blockLength.passes s = (s.blklen == Config.blockLength) := rfl
@[simp] theorem scheduleLength_passes : LengthCheck.scheduleLength.passes s = (s.rklen == Config.scheduleLength) := rfl

theorem rejection_wellFormed {c : Instr} (h : c.wellFormed = true) :
    rejection c s = firstFailure s (lengthChecks c) := by
  simp [rejection, h]

theorem rejection_illFormed {c : Instr} (h : c.wellFormed = false) : rejection c s = some .illegalCommand := by
  simp [rejection, h]

/-- Validation reads the three length registers and nothing else. -/
theorem rejection_congr {s t : State} (c : Instr) (hk : s.keylen = t.keylen) (hb : s.blklen = t.blklen)
    (hr : s.rklen = t.rklen) : rejection c s = rejection c t := by
  have h : ∀ x : LengthCheck, x.passes s = x.passes t := by
    intro x; cases x <;> simp [hk, hb, hr]
  simp [rejection, firstFailure, h]

/-! Running one command as one atomic step (R224). -/

theorem runCommand_busy {s : State} (c : Instr) (eff : State → State) (h : s.busy = true) :
    runCommand c eff s = .refused (.hostAccessWhileBusy 0x30) := by
  simp [runCommand, h]

theorem runCommand_rejected {s : State} {c : Instr} {e : CommandError} (eff : State → State)
    (h : s.busy = false) (hr : rejection c s = some e) : runCommand c eff s = .next (raiseError e s) := by
  simp [runCommand, h, hr]

theorem runCommand_accepted {s : State} {c : Instr} (eff : State → State) (h : s.busy = false)
    (hr : rejection c s = none) : runCommand c eff s = .next (completeCommand (eff s)) := by
  simp [runCommand, h, hr]

/-- Everything `runCommand` can do when it answers a next state. -/
theorem runCommand_next {s t : State} {c : Instr} {eff : State → State} (h : runCommand c eff s = .next t) :
    s.busy = false ∧
      ((∃ e, rejection c s = some e ∧ t = raiseError e s) ∨
        (rejection c s = none ∧ t = completeCommand (eff s))) := by
  cases hb : s.busy with
  | true => simp [runCommand, hb] at h
  | false =>
    refine ⟨rfl, ?_⟩
    cases hr : rejection c s with
    | some e =>
      rw [runCommand_rejected eff hb hr] at h
      exact .inl ⟨e, rfl, by cases h; rfl⟩
    | none =>
      rw [runCommand_accepted eff hb hr] at h
      exact .inr ⟨rfl, by cases h; rfl⟩

theorem runCommand_not_fault {s : State} {c : Instr} {eff : State → State} {r : Fault} :
    runCommand c eff s ≠ .fault r := by
  unfold runCommand
  split
  · simp
  · split <;> simp

/-- The data effect of each command (R180 to R188, R149, R231 to R234), by which `exec` is one `runCommand`. -/
def effectOf : Instr → State → State
  | .load => loadEffect
  | .store => storeEffect
  | .ark r => arkImmediateEffect r
  | .sb => sbEffect
  | .sr => srEffect
  | .mc => mcEffect
  | .isb => isbEffect
  | .isr => isrEffect
  | .imc => imcEffect
  | .expand => expandEffect
  | .enc => encEffect
  | .dec => decEffect
  | .enck => enckEffect
  | .deck => deckEffect

/-- Every arm of `exec` is the one shared operation, at its command's data effect. -/
theorem exec_eq_runCommand (i : Instr) (s : State) : exec i s = runCommand i (effectOf i) s := by
  cases i <;> rfl

/-- Everything `exec` can do when it answers a next state. -/
theorem exec_next {i : Instr} {s t : State} (h : exec i s = .next t) :
    s.busy = false ∧
      ((∃ e, rejection i s = some e ∧ t = raiseError e s) ∨
        (rejection i s = none ∧ t = completeCommand (effectOf i s))) := by
  rw [exec_eq_runCommand] at h
  exact runCommand_next h

/-! The data effect of each command, as one record update: what it writes and, by what is not listed, what it leaves
(10_state.md R39). -/

theorem loadEffect_eq : loadEffect s = { s with matrix := toState s.din } := rfl
theorem storeEffect_eq : storeEffect s = { s with dout := fromState s.matrix } := rfl
theorem arkEffect_eq (r : Fin 11) : arkEffect r s = { s with matrix := addRoundKey s.matrix s.rk r } := rfl
theorem sbEffect_eq : sbEffect s = { s with matrix := subBytes s.matrix } := rfl
theorem srEffect_eq : srEffect s = { s with matrix := shiftRows s.matrix } := rfl
theorem mcEffect_eq : mcEffect s = { s with matrix := mixColumns s.matrix } := rfl
theorem isbEffect_eq : isbEffect s = { s with matrix := invSubBytes s.matrix } := rfl
theorem isrEffect_eq : isrEffect s = { s with matrix := invShiftRows s.matrix } := rfl
theorem imcEffect_eq : imcEffect s = { s with matrix := invMixColumns s.matrix } := rfl
theorem expandEffect_eq :
    expandEffect s = { s with rk := expand s.key, rklen := Config.scheduleLength, rc := finalRoundConstant } := by
  simp only [expandEffect, State.withRk, State.withRklen, State.withRc]
theorem encEffect_eq :
    encEffect s = { s with dout := encrypt s.din s.rk, matrix := toState (encrypt s.din s.rk) } := rfl
theorem decEffect_eq :
    decEffect s = { s with dout := decrypt s.din s.rk, matrix := toState (decrypt s.din s.rk) } := rfl
theorem enckEffect_eq :
    enckEffect s =
      { s with
        rk := expand s.key
        rklen := Config.scheduleLength
        rc := finalRoundConstant
        dout := encrypt s.din (expand s.key)
        matrix := toState (encrypt s.din (expand s.key)) } := by
  simp only [enckEffect, encEffect_eq, expandEffect_eq]
theorem deckEffect_eq :
    deckEffect s =
      { s with
        rk := expand s.key
        rklen := Config.scheduleLength
        rc := finalRoundConstant
        dout := decrypt s.din (expand s.key)
        matrix := toState (decrypt s.din (expand s.key)) } := by
  simp only [deckEffect, decEffect_eq, expandEffect_eq]

/-! The fields with a reset value (10_state.md R41). -/

section Reset

variable (data : DataRegisters) (count : Nat)

@[simp] theorem afterReset_busy : (State.afterReset data count).busy = false := busyFlag_reset
@[simp] theorem afterReset_status : (State.afterReset data count).status = 0x00 := rfl
@[simp] theorem afterReset_seq : (State.afterReset data count).seq = .idle := rfl
@[simp] theorem afterReset_keylen : (State.afterReset data count).keylen = 0x00 := rfl
@[simp] theorem afterReset_blklen : (State.afterReset data count).blklen = 0x00 := rfl
@[simp] theorem afterReset_rklen : (State.afterReset data count).rklen = 0x00 := rfl
@[simp] theorem afterReset_dataRegisters : (State.afterReset data count).dataRegisters = data := rfl

/-- A reset is `afterReset` at the next draw, with the outside world's fields kept (R301, R302). -/
theorem applyReset_eq :
    applyReset s =
      { State.afterReset s.nextResetData (s.resets + 1) with script := s.script, pacing := s.pacing, reads := s.reads } :=
  rfl

@[simp] theorem applyReset_busy : (applyReset s).busy = false := busyFlag_reset
@[simp] theorem applyReset_seq : (applyReset s).seq = .idle := rfl

end Reset

/-- ARK's immediate selects a round key exactly when the command is a legal one (R81). -/
theorem roundIndex_eq_some {r : BitVec 4} (h : r ≤ 10#4) : ∃ round : Fin 11, roundIndex r = some round ∧ round.val = r.toNat := by
  have h' : r.toNat < 11 := by bv_omega
  exact ⟨⟨r.toNat, h'⟩, by simp [roundIndex, h'], rfl⟩

end Sys2Proof.Machine
end

