-- ==== Sys2Proof/Laws/PerInstr.lean ====
section
/-!
SUPPORT. Facts about every instruction as syntax, one lemma per constructor.
-/

namespace Sys2Proof.Laws.EncodeFields

/-- 30_encoding.md R80: the command byte's two fields are the opcode and the immediate. -/
def Statement (i : Instr) : Prop := opField (encode i) = i.opcode ∧ immField (encode i) = i.immediate

theorem load : Statement .load := ⟨by decide, by decide⟩
theorem store : Statement .store := ⟨by decide, by decide⟩
theorem ark (r : BitVec 4) : Statement (.ark r) := by
  constructor
  · show opField (0x3#4 ++ r) = 0x3#4
    revert r; decide
  · show immField (0x3#4 ++ r) = r
    revert r; decide
theorem sb : Statement .sb := ⟨by decide, by decide⟩
theorem sr : Statement .sr := ⟨by decide, by decide⟩
theorem mc : Statement .mc := ⟨by decide, by decide⟩
theorem isb : Statement .isb := ⟨by decide, by decide⟩
theorem isr : Statement .isr := ⟨by decide, by decide⟩
theorem imc : Statement .imc := ⟨by decide, by decide⟩
theorem expand : Statement .expand := ⟨by decide, by decide⟩
theorem enc : Statement .enc := ⟨by decide, by decide⟩
theorem dec : Statement .dec := ⟨by decide, by decide⟩
theorem enck : Statement .enck := ⟨by decide, by decide⟩
theorem deck : Statement .deck := ⟨by decide, by decide⟩

end Sys2Proof.Laws.EncodeFields
end

