-- ==== Sys2Proof/Laws/Sequencer.lean ====
section
/-!
SUPPORT. What a micro-step can do, said once, and what no data effect ever touches (10_state.md R39).
-/

namespace Sys2Proof.Machine

variable (s : State)

/-! No micro-operation writes KEY, DIN, KEYLEN, BLKLEN, STATUS, SEQ or the outside world's fields. -/

theorem kwEffect_eq (j : Fin 40) :
    kwEffect j s =
      { s with
        rk := expandWord s.rc j s.rk
        rc := nextRoundConstant j s.rc
        rklen := if j.val = 39 then Config.scheduleLength else s.rklen } := by
  unfold kwEffect
  split <;> simp_all [State.withRk, State.withRc, State.withRklen]

@[simp] theorem microEffect_key (u : MicroOp) : (microEffect u s).key = s.key := by
  cases u <;> simp only [microEffect, loadEffect, storeEffect, arkEffect, sbEffect, srEffect, mcEffect, isbEffect,
    isrEffect, imcEffect, kinitEffect, kwEffect_eq, State.withMatrix_key, State.withDout_key, State.withRk_key, State.withRc_key]

@[simp] theorem microEffect_din (u : MicroOp) : (microEffect u s).din = s.din := by
  cases u <;> simp only [microEffect, loadEffect, storeEffect, arkEffect, sbEffect, srEffect, mcEffect, isbEffect,
    isrEffect, imcEffect, kinitEffect, kwEffect_eq, State.withMatrix_din, State.withDout_din, State.withRk_din, State.withRc_din]

@[simp] theorem microEffect_keylen (u : MicroOp) : (microEffect u s).keylen = s.keylen := by
  cases u <;> simp only [microEffect, loadEffect, storeEffect, arkEffect, sbEffect, srEffect, mcEffect, isbEffect,
    isrEffect, imcEffect, kinitEffect, kwEffect_eq, State.withMatrix_keylen, State.withDout_keylen, State.withRk_keylen, State.withRc_keylen]

@[simp] theorem microEffect_blklen (u : MicroOp) : (microEffect u s).blklen = s.blklen := by
  cases u <;> simp only [microEffect, loadEffect, storeEffect, arkEffect, sbEffect, srEffect, mcEffect, isbEffect,
    isrEffect, imcEffect, kinitEffect, kwEffect_eq, State.withMatrix_blklen, State.withDout_blklen, State.withRk_blklen, State.withRc_blklen]

@[simp] theorem microEffect_status (u : MicroOp) : (microEffect u s).status = s.status := by
  cases u <;> simp only [microEffect, loadEffect, storeEffect, arkEffect, sbEffect, srEffect, mcEffect, isbEffect,
    isrEffect, imcEffect, kinitEffect, kwEffect_eq, State.withMatrix_status, State.withDout_status, State.withRk_status, State.withRc_status]

@[simp] theorem microEffect_seq (u : MicroOp) : (microEffect u s).seq = s.seq := by
  cases u <;> simp only [microEffect, loadEffect, storeEffect, arkEffect, sbEffect, srEffect, mcEffect, isbEffect,
    isrEffect, imcEffect, kinitEffect, kwEffect_eq, State.withMatrix_seq, State.withDout_seq, State.withRk_seq, State.withRc_seq]

@[simp] theorem microEffect_script (u : MicroOp) : (microEffect u s).script = s.script := by
  cases u <;> simp only [microEffect, loadEffect, storeEffect, arkEffect, sbEffect, srEffect, mcEffect, isbEffect,
    isrEffect, imcEffect, kinitEffect, kwEffect_eq, State.withMatrix_script, State.withDout_script, State.withRk_script, State.withRc_script]

@[simp] theorem microEffect_pacing (u : MicroOp) : (microEffect u s).pacing = s.pacing := by
  cases u <;> simp only [microEffect, loadEffect, storeEffect, arkEffect, sbEffect, srEffect, mcEffect, isbEffect,
    isrEffect, imcEffect, kinitEffect, kwEffect_eq, State.withMatrix_pacing, State.withDout_pacing, State.withRk_pacing, State.withRc_pacing]

@[simp] theorem microEffect_reads (u : MicroOp) : (microEffect u s).reads = s.reads := by
  cases u <;> simp only [microEffect, loadEffect, storeEffect, arkEffect, sbEffect, srEffect, mcEffect, isbEffect,
    isrEffect, imcEffect, kinitEffect, kwEffect_eq, State.withMatrix_reads, State.withDout_reads, State.withRk_reads, State.withRc_reads]

@[simp] theorem microEffect_resets (u : MicroOp) : (microEffect u s).resets = s.resets := by
  cases u <;> simp only [microEffect, loadEffect, storeEffect, arkEffect, sbEffect, srEffect, mcEffect, isbEffect,
    isrEffect, imcEffect, kinitEffect, kwEffect_eq, State.withMatrix_resets, State.withDout_resets, State.withRk_resets, State.withRc_resets]

/-! No command's whole effect does either. -/

/-- No data effect reads or writes the pacing. -/
theorem microEffect_withPacing (u : MicroOp) (p : Pacing) :
    microEffect u (s.withPacing p) = (microEffect u s).withPacing p := by
  cases u <;> simp only [microEffect, loadEffect_eq, storeEffect_eq, arkEffect_eq, sbEffect_eq, srEffect_eq, mcEffect_eq,
    isbEffect_eq, isrEffect_eq, imcEffect_eq, kinitEffect, kwEffect_eq, State.withRk, State.withRc, State.withPacing]

theorem arkImmediateEffect_cases (r : BitVec 4) :
    arkImmediateEffect r s = s ∨ ∃ round, arkImmediateEffect r s = arkEffect round s := by
  unfold arkImmediateEffect
  cases roundIndex r with
  | none => exact .inl rfl
  | some round => exact .inr ⟨round, rfl⟩

@[simp] theorem effectOf_key (i : Instr) : (effectOf i s).key = s.key := by
  cases i with
  | ark r => obtain h | ⟨round, h⟩ := arkImmediateEffect_cases s r <;> simp only [effectOf, h, arkEffect, State.withMatrix_key]
  | _ => simp [effectOf, loadEffect, storeEffect, sbEffect, srEffect, mcEffect, isbEffect, isrEffect, imcEffect,
      expandEffect, encEffect, decEffect, enckEffect, deckEffect]

@[simp] theorem effectOf_din (i : Instr) : (effectOf i s).din = s.din := by
  cases i with
  | ark r => obtain h | ⟨round, h⟩ := arkImmediateEffect_cases s r <;> simp only [effectOf, h, arkEffect, State.withMatrix_din]
  | _ => simp [effectOf, loadEffect, storeEffect, sbEffect, srEffect, mcEffect, isbEffect, isrEffect, imcEffect,
      expandEffect, encEffect, decEffect, enckEffect, deckEffect]

@[simp] theorem effectOf_keylen (i : Instr) : (effectOf i s).keylen = s.keylen := by
  cases i with
  | ark r => obtain h | ⟨round, h⟩ := arkImmediateEffect_cases s r <;> simp only [effectOf, h, arkEffect, State.withMatrix_keylen]
  | _ => simp [effectOf, loadEffect, storeEffect, sbEffect, srEffect, mcEffect, isbEffect, isrEffect, imcEffect,
      expandEffect, encEffect, decEffect, enckEffect, deckEffect]

@[simp] theorem effectOf_blklen (i : Instr) : (effectOf i s).blklen = s.blklen := by
  cases i with
  | ark r => obtain h | ⟨round, h⟩ := arkImmediateEffect_cases s r <;> simp only [effectOf, h, arkEffect, State.withMatrix_blklen]
  | _ => simp [effectOf, loadEffect, storeEffect, sbEffect, srEffect, mcEffect, isbEffect, isrEffect, imcEffect,
      expandEffect, encEffect, decEffect, enckEffect, deckEffect]

@[simp] theorem effectOf_status (i : Instr) : (effectOf i s).status = s.status := by
  cases i with
  | ark r => obtain h | ⟨round, h⟩ := arkImmediateEffect_cases s r <;> simp only [effectOf, h, arkEffect, State.withMatrix_status]
  | _ => simp [effectOf, loadEffect, storeEffect, sbEffect, srEffect, mcEffect, isbEffect, isrEffect, imcEffect,
      expandEffect, encEffect, decEffect, enckEffect, deckEffect]

@[simp] theorem effectOf_seq (i : Instr) : (effectOf i s).seq = s.seq := by
  cases i with
  | ark r => obtain h | ⟨round, h⟩ := arkImmediateEffect_cases s r <;> simp only [effectOf, h, arkEffect, State.withMatrix_seq]
  | _ => simp [effectOf, loadEffect, storeEffect, sbEffect, srEffect, mcEffect, isbEffect, isrEffect, imcEffect,
      expandEffect, encEffect, decEffect, enckEffect, deckEffect]

@[simp] theorem effectOf_script (i : Instr) : (effectOf i s).script = s.script := by
  cases i with
  | ark r => obtain h | ⟨round, h⟩ := arkImmediateEffect_cases s r <;> simp only [effectOf, h, arkEffect, State.withMatrix_script]
  | _ => simp [effectOf, loadEffect, storeEffect, sbEffect, srEffect, mcEffect, isbEffect, isrEffect, imcEffect,
      expandEffect, encEffect, decEffect, enckEffect, deckEffect]

@[simp] theorem effectOf_pacing (i : Instr) : (effectOf i s).pacing = s.pacing := by
  cases i with
  | ark r => obtain h | ⟨round, h⟩ := arkImmediateEffect_cases s r <;> simp only [effectOf, h, arkEffect, State.withMatrix_pacing]
  | _ => simp [effectOf, loadEffect, storeEffect, sbEffect, srEffect, mcEffect, isbEffect, isrEffect, imcEffect,
      expandEffect, encEffect, decEffect, enckEffect, deckEffect]

@[simp] theorem effectOf_reads (i : Instr) : (effectOf i s).reads = s.reads := by
  cases i with
  | ark r => obtain h | ⟨round, h⟩ := arkImmediateEffect_cases s r <;> simp only [effectOf, h, arkEffect, State.withMatrix_reads]
  | _ => simp [effectOf, loadEffect, storeEffect, sbEffect, srEffect, mcEffect, isbEffect, isrEffect, imcEffect,
      expandEffect, encEffect, decEffect, enckEffect, deckEffect]

@[simp] theorem effectOf_resets (i : Instr) : (effectOf i s).resets = s.resets := by
  cases i with
  | ark r => obtain h | ⟨round, h⟩ := arkImmediateEffect_cases s r <;> simp only [effectOf, h, arkEffect, State.withMatrix_resets]
  | _ => simp [effectOf, loadEffect, storeEffect, sbEffect, srEffect, mcEffect, isbEffect, isrEffect, imcEffect,
      expandEffect, encEffect, decEffect, enckEffect, deckEffect]

/-! The sequencer (44_cipher_sequencer.md R220, R241). -/

/-- Everything acceptance can do when it answers a next state. -/
theorem startCommand_next {c : Instr} {s t : State} (h : startCommand c s = .next t) :
    s.busy = false ∧
      ((∃ e, rejection c s = some e ∧ t = raiseError e s) ∨ (rejection c s = none ∧ t = acceptCommand c s)) := by
  unfold startCommand at h
  split at h
  · cases h
  · refine ⟨by simp_all, ?_⟩
    split at h
    · exact .inl ⟨_, ‹_›, by cases h; rfl⟩
    · exact .inr ⟨‹_›, by cases h; rfl⟩

/-- Everything a micro-step can do when it answers a next state. -/
theorem microStep_next {s t : State} (h : microStep s = .next t) :
    ∃ c idx u, s.seq = .running c idx ∧ (microProgram c)[idx]? = some u ∧
      ((idx + 1 = (microProgram c).length ∧ t = completeCommand (microEffect u s)) ∨
        (idx + 1 ≠ (microProgram c).length ∧ t = (microEffect u s).withSeq (.running c (idx + 1)))) := by
  unfold microStep at h
  split at h
  · cases h
  · rename_i c idx hseq
    split at h
    · cases h
    · rename_i u hu
      refine ⟨c, idx, u, hseq, hu, ?_⟩
      split at h
      · exact .inl ⟨‹_›, by cases h; rfl⟩
      · exact .inr ⟨‹_›, by cases h; rfl⟩

/-- A micro-step that is not the last. -/
theorem microStep_advance {s : State} {c : Instr} {idx : Nat} {u : MicroOp} (hseq : s.seq = .running c idx)
    (hu : (microProgram c)[idx]? = some u) (hlast : idx + 1 ≠ (microProgram c).length) :
    microStep s = .next ((microEffect u s).withSeq (.running c (idx + 1))) := by
  simp [microStep, hseq, hu, hlast]

/-- The last micro-step. -/
theorem microStep_last {s : State} {c : Instr} {idx : Nat} {u : MicroOp} (hseq : s.seq = .running c idx)
    (hu : (microProgram c)[idx]? = some u) (hlast : idx + 1 = (microProgram c).length) :
    microStep s = .next (completeCommand (microEffect u s)) := by
  simp [microStep, hseq, hu, hlast]

theorem microStep_not_refused {s : State} {x : Refusal} : microStep s ≠ .refused x := by
  unfold microStep
  split
  · simp
  · split
    · simp
    · split <;> simp

theorem microSteps_succ (n : Nat) {s t : State} (h : microStep s = .next t) : microSteps (n + 1) s = microSteps n t := by
  simp [microSteps, h]

end Sys2Proof.Machine
end

