-- ==== Sys2Proof/Laws/Step.lean ====
section
/-!
SUPPORT. What a step of the machine can do, said once (00_scope.md R12, 70_reset_and_hazards.md R305).
-/

namespace Sys2Proof.Machine

variable (s : State)

/-! Using up a turn changes the pacing alone. -/

@[simp] theorem useTurn_busy : s.useTurn.busy = s.busy := by
  unfold State.useTurn; split <;> rfl

@[simp] theorem useTurn_script : s.useTurn.script = s.script := by
  unfold State.useTurn; split <;> rfl

@[simp] theorem useTurn_seq : s.useTurn.seq = s.seq := by
  unfold State.useTurn; split <;> rfl

theorem useTurn_idle {s : State} (h : s.busy = false) : s.useTurn = s := by
  simp [State.useTurn, h]

theorem useTurn_eq_withPacing : ∃ p, s.useTurn = s.withPacing p := by
  unfold State.useTurn
  split
  · exact ⟨_, rfl⟩
  · exact ⟨s.pacing, rfl⟩

/-! Who moves (R12). -/

theorem mover_idle {s : State} (h : s.busy = false) : s.mover = .host := by
  simp [State.mover, h]

theorem mover_whole {s : State} (hb : s.busy = true) (hp : s.pacing = .whole) : s.mover = .sequencer := by
  simp [State.mover, hb, hp]

theorem mover_script_nil {s : State} (hb : s.busy = true) (hs : s.script = []) : s.mover = .sequencer := by
  unfold State.mover
  simp only [hb, hs, if_true]
  split <;> simp_all

theorem mover_stepped_nil {s : State} (hb : s.busy = true) (hp : s.pacing = .stepped []) : s.mover = .sequencer := by
  simp [State.mover, hb, hp]

/-- While BUSY is 1 the host moves only when it has something to do. -/
theorem mover_host_busy {s : State} (hb : s.busy = true) (hm : s.mover = .host) : ∃ op rest, s.script = op :: rest := by
  cases hs : s.script with
  | nil =>
    exfalso
    unfold State.mover at hm
    simp only [hb, hs, if_true] at hm
    split at hm <;> simp_all
  | cons op rest => exact ⟨op, rest, rfl⟩

/-- A step is the host's next operation, a micro-step, or nothing. -/
theorem step_cases :
    (s.mover = .sequencer ∧ step s = microStep s.useTurn) ∨
      (s.mover = .host ∧ s.script = [] ∧ s.busy = false ∧ step s = .next s) ∨
      (∃ op rest, s.mover = .host ∧ s.script = op :: rest ∧ step s = hostOp op (s.useTurn.withScript rest)) := by
  unfold step agentStep
  cases hm : s.mover with
  | sequencer => exact .inl ⟨rfl, rfl⟩
  | host =>
    right
    cases hs : s.script with
    | nil =>
      left
      have hb : s.busy = false := by
        cases hb : s.busy with
        | false => rfl
        | true =>
          obtain ⟨op, rest, h⟩ := mover_host_busy hb hm
          simp [hs] at h
      exact ⟨rfl, rfl, hb, by simp [hostTurn, hs, useTurn_idle hb]⟩
    | cons op rest => exact .inr ⟨op, rest, rfl, rfl, by simp [hostTurn, hs]⟩

/-- A step taken while BUSY is 0 with an operation left in the script. -/
theorem step_idle {s : State} {op : HostOp} {rest : List HostOp} (hb : s.busy = false) (hs : s.script = op :: rest) :
    step s = hostOp op (s.withScript rest) := by
  simp [step, agentStep, mover_idle hb, hostTurn, hs, useTurn_idle hb]

theorem useTurn_busy_eq {s : State} (hb : s.busy = true) : s.useTurn = s.withPacing s.pacing.afterTurn := by
  simp [State.useTurn, hb]

/-- The sequencer's turn while BUSY is 1: one micro-step, and one turn of the pacing is used up. -/
theorem step_sequencer {s : State} (hb : s.busy = true) (hm : s.mover = .sequencer) :
    step s = microStep (s.withPacing s.pacing.afterTurn) := by
  simp [step, agentStep, hm, useTurn_busy_eq hb]

/-- A step of the sequencer while no turn is the host's. -/
theorem step_busy_whole {s : State} (hb : s.busy = true) (hp : s.pacing = .whole) : step s = microStep s := by
  have h : s.useTurn = s := by
    cases s
    simp only at hp
    subst hp
    simp [State.useTurn, State.withPacing, Pacing.afterTurn]
  simp [step, agentStep, mover_whole hb hp, h]

/-! Runs of several steps. -/

theorem core_run_succ (M : Host.Core) (k : Nat) {s t : M.State} (h : M.step s = .next t) : M.run (k + 1) s = M.run k t := by
  simp only [Host.Core.run, h]

theorem run_succ (k : Nat) {s t : State} (h : step s = .next t) : Sys2Proof.core.run (k + 1) s = Sys2Proof.core.run k t :=
  core_run_succ Sys2Proof.core k h

theorem run_one {s t : State} (h : step s = .next t) : Sys2Proof.core.run 1 s = .next t := run_succ 0 h

/-! The operations of the outside world. -/

@[simp] theorem locate_cmd : locate 48#8 = .cmd := by decide
@[simp] theorem locate_status : locate 49#8 = .status := by decide

theorem hostWrite_busy {s : State} (a v : Byte) (h : s.busy = true) :
    hostWrite a v s = .refused (.hostAccessWhileBusy a) := by
  simp [hostWrite, h]

theorem hostWrite_register {s : State} {a : Byte} (v : Byte) (h : s.busy = false) (ha : locate a ≠ .cmd) :
    hostWrite a v s = .next (writeByte s a v) := by
  simp [hostWrite, h, ha]

theorem hostWrite_cmd {s : State} (v : Byte) (h : s.busy = false) : hostWrite 0x30 v s = submitCommand v s := by
  simp [hostWrite, h]

theorem hostRead_idle {s : State} (a : Byte) (h : s.busy = false) :
    hostRead a s = .next (s.withReads (s.reads ++ [readByte s a])) := by
  simp [hostRead, h]

theorem hostRead_busy {s : State} {a : Byte} (h : s.busy = true) (ha : locate a ≠ .status) :
    hostRead a s = .refused (.hostAccessWhileBusy a) := by
  simp [hostRead, h, ha]

theorem hostRead_status (s : State) : hostRead 0x31 s = .next (s.withReads (s.reads ++ [s.status])) := by
  simp [hostRead, readByte, readLocation]

theorem submitCommand_illegal {s : State} {v : Byte} {why : IllegalReason} (h : decode v = .illegal why) :
    submitCommand v s = .next (raiseError .illegalCommand s) := by
  simp [submitCommand, h]

theorem submitCommand_whole {s : State} {v : Byte} {c : Instr} (h : decode v = .command c) (hp : s.pacing = .whole) :
    submitCommand v s = exec c s := by
  simp [submitCommand, h, hp]

theorem submitCommand_stepped {s : State} {v : Byte} {c : Instr} {turns : List Agent} (h : decode v = .command c)
    (hp : s.pacing = .stepped turns) : submitCommand v s = startCommand c s := by
  simp [submitCommand, h, hp]

/-- A host write changes at most one of the registers it can reach (20_memory.md R54). -/
theorem writeLocation_cases (s : State) (v : Byte) (l : Location) :
    writeLocation s v l = s ∨
      (∃ n : Fin 16, l = .key n ∧ writeLocation s v l = s.withKey (s.key.set n.val v)) ∨
      (∃ n : Fin 16, l = .din n ∧ writeLocation s v l = s.withDin (s.din.set n.val v)) ∨
      (l = .keylen ∧ writeLocation s v l = s.withKeylen v) ∨
      (l = .blklen ∧ writeLocation s v l = s.withBlklen v) ∨
      (l = .rklen ∧ writeLocation s v l = s.withRklen v) ∨
      (∃ (i : Fin 44) (k : Fin 4), l = .rk i k ∧
        writeLocation s v l = s.withRk (s.rk.set i.val ((s.rk[i]).set k.val v))) := by
  cases l with
  | key n => exact .inr (.inl ⟨n, rfl, rfl⟩)
  | din n => exact .inr (.inr (.inl ⟨n, rfl, rfl⟩))
  | keylen => exact .inr (.inr (.inr (.inl ⟨rfl, rfl⟩)))
  | blklen => exact .inr (.inr (.inr (.inr (.inl ⟨rfl, rfl⟩))))
  | rklen => exact .inr (.inr (.inr (.inr (.inr (.inl ⟨rfl, rfl⟩)))))
  | rk i k => exact .inr (.inr (.inr (.inr (.inr (.inr ⟨i, k, rfl, rfl⟩)))))
  | dout n => exact .inl rfl
  | cmd => exact .inl rfl
  | status => exact .inl rfl
  | reserved => exact .inl rfl

end Sys2Proof.Machine
end

