-- ==== Sys2Proof/Laws/Vectors.lean ====
section
/-!
SUPPORT. The entry of each vector that a pure function makes, and equality of states and schedules byte by byte. The
provers cite these instead of unfolding the functions.
-/

namespace Sys2Proof

@[simp] theorem StateMatrix.getElem_ofFn (f : Fin 4 → Fin 4 → Byte) (r c : Nat) (hr : r < 4) (hc : c < 4) :
    ((StateMatrix.ofFn f)[r])[c] = f ⟨r, hr⟩ ⟨c, hc⟩ := by
  simp [StateMatrix.ofFn]

theorem StateMatrix.ext_entries {S T : StateMatrix} (h : ∀ r c : Fin 4, (S[r])[c] = (T[r])[c]) : S = T := by
  apply Vector.ext
  intro r hr
  apply Vector.ext
  intro c hc
  exact h ⟨r, hr⟩ ⟨c, hc⟩

theorem Block.ext_bytes {a b : Block} (h : ∀ n : Fin 16, a[n] = b[n]) : a = b :=
  Vector.ext fun n hn => h ⟨n, hn⟩

theorem Word.ext_bytes {u v : Word} (h : ∀ k : Fin 4, u[k] = v[k]) : u = v :=
  Vector.ext fun k hk => h ⟨k, hk⟩

theorem Schedule.ext_words {V W : Schedule} (h : ∀ i : Fin 44, V[i] = W[i]) : V = W :=
  Vector.ext fun i hi => h ⟨i, hi⟩

namespace Machine

variable (S : StateMatrix) (W : Schedule)

@[simp] theorem toState_entry (blk : Block) (r c : Nat) (hr : r < 4) (hc : c < 4) :
    ((toState blk)[r])[c] = blk[r + 4 * c] := by
  simp [toState]

@[simp] theorem fromState_byte (n : Nat) (hn : n < 16) :
    (fromState S)[n] = (S[n % 4]'(by omega))[n / 4]'(by omega) := by
  simp [fromState]

@[simp] theorem subBytes_entry (r c : Nat) (hr : r < 4) (hc : c < 4) :
    ((subBytes S)[r])[c] = substitute (S[r])[c] := by
  simp [subBytes]

@[simp] theorem invSubBytes_entry (r c : Nat) (hr : r < 4) (hc : c < 4) :
    ((invSubBytes S)[r])[c] = inverseSubstitute (S[r])[c] := by
  simp [invSubBytes]

@[simp] theorem shiftRows_entry (r c : Nat) (hr : r < 4) (hc : c < 4) :
    ((shiftRows S)[r])[c] = (S[r])[(c + r) % 4]'(Nat.mod_lt _ (by decide)) := by
  simp [shiftRows]

@[simp] theorem invShiftRows_entry (r c : Nat) (hr : r < 4) (hc : c < 4) :
    ((invShiftRows S)[r])[c] = (S[r])[(c + (4 - r)) % 4]'(Nat.mod_lt _ (by decide)) := by
  simp [invShiftRows]

@[simp] theorem addRoundKey_entry (round : Fin 11) (r c : Nat) (hr : r < 4) (hc : c < 4) :
    ((addRoundKey S W round)[r])[c] = (S[r])[c] ^^^ (W[4 * round.val + c]'(by omega))[r] := by
  simp [addRoundKey, roundKeyWord]

@[simp] theorem circulant_entry (first : Word) (r c : Nat) (hr : r < 4) (hc : c < 4) :
    ((circulant first)[r])[c] = first[(c + (4 - r)) % 4]'(Nat.mod_lt _ (by decide)) := by
  simp [circulant]

/-- R8: the rows of the forward mixing matrix. -/
theorem mixMatrix_rows :
    mixMatrix[0] = #v[2, 3, 1, 1] ∧ mixMatrix[1] = #v[1, 2, 3, 1] ∧ mixMatrix[2] = #v[1, 1, 2, 3] ∧
      mixMatrix[3] = #v[3, 1, 1, 2] := by decide

/-- R8: the rows of the inverse mixing matrix. -/
theorem invMixMatrix_rows :
    invMixMatrix[0] = #v[14, 11, 13, 9] ∧ invMixMatrix[1] = #v[9, 14, 11, 13] ∧
      invMixMatrix[2] = #v[13, 9, 14, 11] ∧ invMixMatrix[3] = #v[11, 13, 9, 14] := by decide

theorem mixWith_entry (M : StateMatrix) (r c : Nat) (hr : r < 4) (hc : c < 4) :
    ((mixWith M S)[r])[c] =
      multiply (M[r])[0] (S[0])[c] ^^^ multiply (M[r])[1] (S[1])[c] ^^^
        multiply (M[r])[2] (S[2])[c] ^^^ multiply (M[r])[3] (S[3])[c] := by
  simp [mixWith]

@[simp] theorem xorWord_byte (u v : Word) (k : Nat) (hk : k < 4) : (xorWord u v)[k] = u[k] ^^^ v[k] := by
  simp [xorWord]

@[simp] theorem subWord_byte (w : Word) (k : Nat) (hk : k < 4) : (subWord w)[k] = substitute w[k] := by
  simp [subWord]

@[simp] theorem rotWord_byte (w : Word) (k : Nat) (hk : k < 4) :
    (rotWord w)[k] = w[(k + 1) % 4]'(Nat.mod_lt _ (by decide)) := by
  simp [rotWord]

@[simp] theorem keyWord_byte (key : Block) (i : Fin 4) (k : Nat) (hk : k < 4) :
    (keyWord key i)[k] = key[4 * i.val + k]'(by omega) := by
  simp [keyWord]

/-- `expandWord` writes word `j + 4` and no other. -/
theorem expandWord_word (rc : Byte) (j : Fin 40) (i : Nat) (hi : i < 44) :
    (expandWord rc j W)[i] = if j.val + 4 = i then xorWord W[j.val] (scheduleTemp rc j W) else W[i] := by
  simp [expandWord, Vector.getElem_set]

/-- `loadKeyWords` writes words 0..3 and no other. -/
theorem loadKeyWords_word (key : Block) (i : Nat) (hi : i < 44) :
    (loadKeyWords key W)[i] = if h : i < 4 then keyWord key ⟨i, h⟩ else W[i] := by
  simp [loadKeyWords]

end Machine

end Sys2Proof
end

