-- ==== Sys2Proof/Tests/Slice0.lean ====
section
/-!
SUPPORT. Tests of one step or one function each, with the results that the spec gives (95_test_vectors.md, the worked
examples of the rules), and a named witness for the hypotheses of every statement that has some.
-/

namespace Sys2Proof.Tests

open Sys2Proof Sys2Proof.Machine Sys2Proof.Claims

set_option maxRecDepth 20000
set_option Elab.async false

/-- The result is a next state, and `p` holds of it. -/
def nextSat (r : Result) (p : State → Bool) : Bool :=
  match r with
  | .next t => p t
  | .fault _ => false
  | .refused _ => false

/-- The result is a refusal of a host access to `a`. -/
def refusesAccess (r : Result) (a : Byte) : Bool :=
  match r with
  | .refused x => x == .hostAccessWhileBusy a
  | .next _ => false
  | .fault _ => false

theorem exists_next {r : Result} {p : State → Bool} (h : nextSat r p = true) : ∃ t, r = .next t ∧ p t = true := by
  cases r with
  | next t => exact ⟨t, rfl, h⟩
  | fault _ => cases h
  | refused _ => cases h

/-- Key and block of vectors V-KS-C, V-ENC-C; the key is also the index block of V-XFORM. -/
def keyC : Block := #v[0x00, 0x01, 0x02, 0x03, 0x04, 0x05, 0x06, 0x07, 0x08, 0x09, 0x0a, 0x0b, 0x0c, 0x0d, 0x0e, 0x0f]
def blockC : Block := #v[0x00, 0x11, 0x22, 0x33, 0x44, 0x55, 0x66, 0x77, 0x88, 0x99, 0xaa, 0xbb, 0xcc, 0xdd, 0xee, 0xff]
def cipherC : Block := #v[0x69, 0xc4, 0xe0, 0xd8, 0x6a, 0x7b, 0x04, 0x30, 0xd8, 0xcd, 0xb7, 0x80, 0x70, 0xb4, 0xc5, 0x5a]

/-- Key and block of vectors V-KS-A, V-ENC-A. -/
def keyA : Block := #v[0x2b, 0x7e, 0x15, 0x16, 0x28, 0xae, 0xd2, 0xa6, 0xab, 0xf7, 0x15, 0x88, 0x09, 0xcf, 0x4f, 0x3c]
def blockA : Block := #v[0x32, 0x43, 0xf6, 0xa8, 0x88, 0x5a, 0x30, 0x8d, 0x31, 0x31, 0x98, 0xa2, 0xe0, 0x37, 0x07, 0x34]

/-- The block of sixteen zero bytes. -/
def zeroBlock : Block := #v[0x00, 0x00, 0x00, 0x00, 0x00, 0x00, 0x00, 0x00, 0x00, 0x00, 0x00, 0x00, 0x00, 0x00, 0x00, 0x00]

/-- A core ready for every command: key C expanded, block C in DIN, the index block in STATE, the lengths declared. -/
def ready : State :=
  { State.reset with
    key := keyC, din := blockC, rk := expand keyC, matrix := toState keyC, keylen := 16, blklen := 16, rklen := 44 }

/-- A ready core that runs command `c`, at micro-step `idx`, with these turns to come. -/
def runningAt (c : Instr) (idx : Nat) (turns : List Agent) : State :=
  { ready with status := 0x01, seq := .running c idx, pacing := .stepped turns }

/-- A core before a write of `v` to CMD, with these three lengths. -/
def writingWith (v keylen blklen rklen : Byte) (pacing : Pacing) : State :=
  { ready with
    keylen := keylen, blklen := blklen, rklen := rklen, pacing := pacing, script := [.wr 0x30 v] }

/-- A core before ENC is submitted micro-step by micro-step and polled twice, once between the micro-steps. -/
def polling : State :=
  { ready with
    pacing := .stepped [.sequencer, .host], script := .wr 0x30 (encode .enc) :: List.replicate 2 (.rd 0x31) }

/-! ## Well-formedness and decoding (30_encoding.md R80 to R85, V-DECODE) -/

theorem test_wellFormed_refuses_ark_11 : (Instr.ark 11).wellFormed = false := by decide

theorem test_wellFormed_accepts_ark_10 : (Instr.ark 10).wellFormed = true := by decide

/-- R80: bits 7:4 are the opcode of R82, bits 3:0 the immediate. -/
theorem test_decode_words :
    decode 0b00010000 = .command .load ∧ decode 0b00100000 = .command .store ∧
      decode 0b00110000 = .command (.ark 0) ∧ decode 0b00111010 = .command (.ark 10) ∧
      decode 0b01000000 = .command .sb ∧ decode 0b01010000 = .command .sr ∧ decode 0b01100000 = .command .mc ∧
      decode 0b01110000 = .command .isb ∧ decode 0b10000000 = .command .isr ∧ decode 0b10010000 = .command .imc ∧
      decode 0b10100000 = .command .expand ∧ decode 0b10110000 = .command .enc ∧ decode 0b11000000 = .command .dec ∧
      decode 0b11010000 = .command .enck ∧ decode 0b11100000 = .command .deck := by decide

theorem test_decode_illegal :
    decode 0x00 = .illegal .opcodeUnassigned ∧ decode 0xF0 = .illegal .opcodeUnassigned ∧
      decode 0x3B = .illegal .roundOutOfRange ∧ decode 0x3F = .illegal .roundOutOfRange ∧
      decode 0x11 = .illegal .immediateNotZero ∧ decode 0xE1 = .illegal .immediateNotZero ∧
      decode 0xFF = .illegal .immediateNotZero := by decide

theorem test_decodeTableWord :
    decodeTableWord 8 0x35 = some (.ark 5) ∧ decodeTableWord 8 0xD0 = some .enck ∧ decodeTableWord 8 0xB1 = none := by
  decide

/-! ## Functions (V-GF-DBL, V-GF-MUL, V-SBOX, V-RCON, V-ROT, V-SUBW, V-KS-A) -/

theorem test_doubleInField :
    doubleInField 0x7f = 0xfe ∧ doubleInField 0x80 = 0x1b ∧ doubleInField 0xff = 0xe5 ∧ doubleInField 0x8d = 0x01 := by
  decide

theorem test_multiply :
    multiply 0x57 0x13 = 0xfe ∧ multiply 0x57 0x83 = 0xc1 ∧ multiply 0x80 0x80 = 0x9a ∧ multiply 0x0e 0x09 = 0x7e := by
  decide

theorem test_substitute :
    substitute 0x53 = 0xed ∧ substitute 0x00 = 0x63 ∧ substitute 0xff = 0x16 ∧ inverseSubstitute 0xed = 0x53 ∧
      inverseSubstitute 0x00 = 0x52 ∧ inverseSubstitute 0xff = 0x7d := by decide

theorem test_rcon : rcon 8 = 0x80 ∧ rcon 9 = 0x1b ∧ rcon 10 = 0x36 := by decide

theorem test_rotWord_subWord :
    rotWord #v[0x09, 0xcf, 0x4f, 0x3c] = #v[0xcf, 0x4f, 0x3c, 0x09] ∧
      subWord #v[0xcf, 0x4f, 0x3c, 0x09] = #v[0x8a, 0x84, 0xeb, 0x01] := by decide

theorem test_expand_key_A :
    (expand keyA)[4] = #v[0xa0, 0xfa, 0xfe, 0x17] ∧ (expand keyA)[5] = #v[0x88, 0x54, 0x2c, 0xb1] ∧
      (expand keyA)[36] = #v[0xac, 0x77, 0x66, 0xf3] ∧ (expand keyA)[43] = #v[0xb6, 0x63, 0x0c, 0xa6] := by
  decide +kernel

/-! ## Step commands (V-LOAD, V-STORE, V-XFORM) -/

/-- R180: DIN `3243f6a8…` fills STATE by columns. -/
theorem test_load :
    nextSat (exec .load { ready with din := blockA }) (fun t =>
      t.matrix[0] == #v[0x32, 0x88, 0x31, 0xe0] && t.matrix[1] == #v[0x43, 0x5a, 0x31, 0x37] &&
        t.matrix[2] == #v[0xf6, 0x30, 0x98, 0x07] && t.matrix[3] == #v[0xa8, 0x8d, 0xa2, 0x34] &&
        t.status == 0x02) = true := by decide +kernel

theorem test_store :
    nextSat (exec .store ready) (fun t => t.dout == keyC && t.status == 0x02) = true := by decide +kernel

theorem test_sb :
    nextSat (exec .sb ready) (fun t => fromState t.matrix ==
      #v[0x63, 0x7c, 0x77, 0x7b, 0xf2, 0x6b, 0x6f, 0xc5, 0x30, 0x01, 0x67, 0x2b, 0xfe, 0xd7, 0xab, 0x76]) = true := by
  decide +kernel

theorem test_sr :
    nextSat (exec .sr ready) (fun t => fromState t.matrix ==
      #v[0x00, 0x05, 0x0a, 0x0f, 0x04, 0x09, 0x0e, 0x03, 0x08, 0x0d, 0x02, 0x07, 0x0c, 0x01, 0x06, 0x0b]) = true := by
  decide +kernel

theorem test_mc :
    nextSat (exec .mc ready) (fun t => fromState t.matrix ==
      #v[0x02, 0x07, 0x00, 0x05, 0x06, 0x03, 0x04, 0x01, 0x0a, 0x0f, 0x08, 0x0d, 0x0e, 0x0b, 0x0c, 0x09]) = true := by
  decide +kernel

theorem test_isb :
    nextSat (exec .isb ready) (fun t => fromState t.matrix ==
      #v[0x52, 0x09, 0x6a, 0xd5, 0x30, 0x36, 0xa5, 0x38, 0xbf, 0x40, 0xa3, 0x9e, 0x81, 0xf3, 0xd7, 0xfb]) = true := by
  decide +kernel

theorem test_isr :
    nextSat (exec .isr ready) (fun t => fromState t.matrix ==
      #v[0x00, 0x0d, 0x0a, 0x07, 0x04, 0x01, 0x0e, 0x0b, 0x08, 0x05, 0x02, 0x0f, 0x0c, 0x09, 0x06, 0x03]) = true := by
  decide +kernel

theorem test_imc :
    nextSat (exec .imc ready) (fun t => fromState t.matrix ==
      #v[0x0a, 0x0f, 0x08, 0x0d, 0x0e, 0x0b, 0x0c, 0x09, 0x02, 0x07, 0x00, 0x05, 0x06, 0x03, 0x04, 0x01]) = true := by
  decide +kernel

theorem test_ark_1 :
    nextSat (exec (.ark 1) ready) (fun t => fromState t.matrix ==
      #v[0xd6, 0xab, 0x76, 0xfe, 0xd6, 0xaa, 0x74, 0xfd, 0xd2, 0xaf, 0x72, 0xfa, 0xda, 0xa6, 0x78, 0xf1]) = true := by
  decide +kernel

theorem test_ark_10 :
    nextSat (exec (.ark 10) ready) (fun t => fromState t.matrix ==
      #v[0x13, 0x10, 0x1f, 0x7c, 0xe7, 0x91, 0x4c, 0x10, 0xfb, 0x0e, 0xad, 0x80, 0x41, 0x26, 0x3e, 0xca]) = true := by
  decide +kernel

/-- V-MC: the column (db, 13, 53, 45), and one with a reduction in every product. -/
theorem test_mixColumns_columns :
    fromState (mixColumns (toState #v[0xdb, 0x13, 0x53, 0x45, 0x80, 0, 0, 0, 0, 0, 0, 0, 0x2d, 0x26, 0x31, 0x4c])) =
      #v[0x8e, 0x4d, 0xa1, 0xbc, 0x1b, 0x80, 0x80, 0x9b, 0, 0, 0, 0, 0x4d, 0x7e, 0xbd, 0xf8] := by decide +kernel

theorem test_invMixColumns_columns :
    fromState (invMixColumns (toState #v[0xdb, 0x13, 0x53, 0x45, 0x80, 0, 0, 0, 0, 0, 0, 0, 0x2d, 0x26, 0x31, 0x4c])) =
      #v[0x32, 0xa4, 0x1d, 0x55, 0x41, 0xec, 0xda, 0xf7, 0, 0, 0, 0, 0xa0, 0x50, 0x50, 0xd6] := by decide +kernel

/-! ## Composite commands (V-KS-C, V-ENC-C, V-DEC-C, V-ENC-Z) -/

/-- R149's worked example: W[4], round key 10, RKLEN, RC. -/
theorem test_expand :
    nextSat (exec .expand { ready with rk := (Config.resetData 0 none).rk, rklen := 0 }) (fun t =>
      t.rk[4] == #v[0xd6, 0xaa, 0x74, 0xfd] && t.rk[40] == #v[0x13, 0x11, 0x1d, 0x7f] &&
        t.rk[43] == #v[0x4d, 0x2b, 0x30, 0xc5] && t.rklen == 0x2c && t.rc == 0x6c && t.status == 0x02) = true := by
  decide +kernel

theorem test_enc : nextSat (exec .enc ready) (fun t => t.dout == cipherC && t.matrix == toState cipherC) = true := by
  decide +kernel

theorem test_dec : nextSat (exec .dec { ready with din := cipherC }) (fun t => t.dout == blockC) = true := by
  decide +kernel

/-- V-ENC-Z: it needs no schedule and leaves one. -/
theorem test_enck :
    nextSat (exec .enck { ready with key := zeroBlock, din := zeroBlock, rklen := 0 }) (fun t => t.dout ==
      #v[0x66, 0xe9, 0x4b, 0xd4, 0xef, 0x8a, 0x2c, 0x3b, 0x88, 0x4c, 0xfa, 0x59, 0xca, 0x34, 0x2b, 0x2e] &&
        t.rk[43] == #v[0x6f, 0x8f, 0x18, 0x8e] && t.rklen == 44) = true := by decide +kernel

/-- R234: the all-zero block under the all-zero key does not decrypt to zero. -/
theorem test_deck :
    nextSat (exec .deck { ready with key := zeroBlock, din := zeroBlock }) (fun t => t.dout ==
      #v[0x14, 0x0f, 0x0f, 0x10, 0x11, 0xb5, 0x22, 0x3d, 0x79, 0x58, 0x77, 0x17, 0xff, 0xd9, 0xec, 0x3a]) = true := by
  decide +kernel

/-! ## Errors (V-ERR) -/

/-- STATUS after a write of `v` to CMD, with these three lengths. -/
def statusAfter (v keylen blklen rklen : Byte) (expected : Byte) : Bool :=
  nextSat (step { State.reset with
    keylen := keylen, blklen := blklen, rklen := rklen, script := [.wr 0x30 v], pacing := .stepped [] })
    (fun t => t.status == expected)

theorem test_error_rows_key :
    statusAfter 0xa0 16 0 0 0x01 = true ∧ statusAfter 0xa0 15 16 44 0x14 = true ∧ statusAfter 0xa0 17 16 44 0x14 = true ∧
      statusAfter 0xd0 0 0 0 0x14 = true ∧ statusAfter 0xe0 24 16 44 0x14 = true := by decide +kernel

theorem test_error_rows_block :
    statusAfter 0x10 0 16 0 0x01 = true ∧ statusAfter 0x10 16 0 44 0x24 = true ∧ statusAfter 0xb0 16 0 0 0x24 = true ∧
      statusAfter 0xd0 16 255 0 0x24 = true ∧ statusAfter 0xc0 0 0 0 0x24 = true := by decide +kernel

theorem test_error_rows_schedule :
    statusAfter 0x3a 0 0 44 0x01 = true ∧ statusAfter 0x30 16 16 43 0x34 = true ∧ statusAfter 0xb0 16 16 45 0x34 = true ∧
      statusAfter 0xd0 16 16 0 0x01 = true := by decide +kernel

theorem test_error_rows_illegal :
    statusAfter 0x3b 16 16 44 0x44 = true ∧ statusAfter 0x00 16 16 44 0x44 = true ∧ statusAfter 0xff 16 16 44 0x44 = true ∧
      statusAfter 0xb1 0 0 0 0x44 = true := by decide +kernel

/-! ## The host register space, reset, the sequencer -/

/-- Program P4: CMD and reserved addresses read 0x00. -/
theorem test_host_reads :
    readByte ready 0x30 = 0x00 ∧ readByte ready 0x35 = 0x00 ∧ readByte ready 0xF0 = 0x00 ∧ readByte ready 0x34 = 0x2c ∧
      readByte ready 0x0F = 0x0f ∧ readByte ready 0x1F = 0xff := by decide +kernel

/-- R149: addresses 0x50 to 0x53 and 0xEF after the expansion of key C. -/
theorem test_host_reads_schedule :
    readByte ready 0x50 = 0xd6 ∧ readByte ready 0x53 = 0xfd ∧ readByte ready 0xEF = 0xc5 := by decide +kernel

/-- R54: KEY is written byte by byte; DOUT, STATUS and reserved addresses ignore writes (program P4). -/
theorem test_host_writes :
    nextSat (step { ready with script := [.wr 0x0F 0xaa] }) (fun t => t.key[15] == 0xaa && t.key[14] == 0x0e) = true ∧
      nextSat (step { ready with dout := zeroBlock, script := [.wr 0x20 0xaa] }) (fun t => t.dout == zeroBlock) = true ∧
      nextSat (step { ready with script := [.wr 0x31 0xff] }) (fun t => t.status == 0x00) = true := by decide +kernel

/-- R305: while BUSY is 1 a STATUS read returns 0x01; a write, and a read of any other address, is refused. -/
theorem test_busy_accesses :
    nextSat (step { runningAt .enc 5 [.host] with script := [.rd 0x31] }) (fun t => t.reads == [0x01]) = true ∧
      refusesAccess (step { runningAt .enc 5 [.host] with script := [.rd 0x20] }) 0x20 = true ∧
      refusesAccess (step { runningAt .enc 5 [.host] with script := [.wr 0x30 0xb0] }) 0x30 = true := by
  decide +kernel

/-- R302: a reset abandons the running command. -/
theorem test_reset_while_busy :
    nextSat (step { runningAt .enc 5 [.host] with script := [.rst] }) (fun t =>
      t.status == 0x00 && t.seq == .idle && t.keylen == 0x00 && t.rklen == 0x00 && t.resets == 1) = true := by
  decide +kernel

/-- V-ENC-A idx 1 and 2: one micro-step of ENC. -/
theorem test_micro_step :
    nextSat (step { runningAt .enc 2 [] with
      matrix := toState #v[0x19, 0x3d, 0xe3, 0xbe, 0xa0, 0xf4, 0xe2, 0x2b, 0x9a, 0xc6, 0x8d, 0x2a, 0xe9, 0xf8, 0x48, 0x08] })
      (fun t => t.seq == .running .enc 3 && t.status == 0x01 &&
        fromState t.matrix ==
          #v[0xd4, 0x27, 0x11, 0xae, 0xe0, 0xbf, 0x98, 0xf1, 0xb8, 0xb4, 0x5d, 0xe5, 0x1e, 0x41, 0x52, 0x30]) = true := by
  decide +kernel

/-- R245: the step at idx 40 of ENCK sets RKLEN and goes on without completing. -/
theorem test_expansion_end_in_enck :
    nextSat (step { runningAt .enck 40 [] with rklen := 0 }) (fun t =>
      t.rklen == 44 && t.seq == .running .enck 41 && t.status == 0x01) = true := by decide +kernel

/-- The fetch word stands for a CMD write that is the very next step. -/
theorem test_withFetchWord :
    nextSat (step (State.reset.withFetchWord 8 0x40)) (fun t => t.status == 0x02) = true ∧
      nextSat (step (State.reset.withFetchWord 8 0xD0)) (fun t => t.status == 0x14) = true := by decide +kernel

/-! ## Witnesses: states and operands that meet the hypotheses of the statements -/

theorem test_witness_StepRunsDecodedCommand :
    (writingWith 0x3A 16 16 44 .whole).busy = false ∧ (writingWith 0x3A 16 16 44 .whole).pacing = .whole ∧
      (writingWith 0x3A 16 16 44 .whole).script = .wr 0x30 0x3A :: [] ∧ decode 0x3A = .command (.ark 10) ∧
      (Instr.ark 10).wellFormed = true := by decide +kernel

/-- The state of every statement about a write to CMD: no command running, the write next in the script. -/
theorem test_witness_writing (v k b r : Byte) (p : Pacing) :
    (writingWith v k b r p).busy = false ∧ (writingWith v k b r p).pacing = p ∧
      (writingWith v k b r p).script = .wr 0x30 v :: [] := ⟨busyFlag_reset, rfl, rfl⟩

/-- Accepted bytes at the ends of each clause, and bytes that are not accepted. -/
theorem test_witness_AcceptanceStartsSequencer :
    AcceptedByte 0x10 (writingWith 0x10 0 16 0 (.stepped [])) ∧ AcceptedByte 0x20 (writingWith 0x20 0 0 0 (.stepped [])) ∧
      AcceptedByte 0x90 (writingWith 0x90 0 0 0 (.stepped [])) ∧ AcceptedByte 0x30 (writingWith 0x30 0 0 44 (.stepped [])) ∧
      AcceptedByte 0x3A (writingWith 0x3A 0 0 44 (.stepped [])) ∧
      AcceptedByte 0xA0 (writingWith 0xA0 16 0 0 (.stepped [])) ∧
      AcceptedByte 0xB0 (writingWith 0xB0 0 16 44 (.stepped [])) ∧
      AcceptedByte 0xE0 (writingWith 0xE0 16 16 0 (.stepped [])) ∧
      ¬ AcceptedByte 0x3B (writingWith 0x3B 16 16 44 (.stepped [])) ∧
      ¬ AcceptedByte 0x3A (writingWith 0x3A 16 16 43 (.stepped [])) ∧
      ¬ AcceptedByte 0xD0 (writingWith 0xD0 16 17 44 (.stepped [])) := by
  unfold AcceptedByte
  and_intros <;> decide +kernel

/-- A byte of each case of R84, and legal bytes beside them. -/
theorem test_witness_IllegalByteRejected :
    IllegalByte 0x00 ∧ IllegalByte 0x0F ∧ IllegalByte 0xF0 ∧ IllegalByte 0xFF ∧ IllegalByte 0x3B ∧ IllegalByte 0x3F ∧
      IllegalByte 0x11 ∧ IllegalByte 0x2F ∧ IllegalByte 0x41 ∧ IllegalByte 0xEF ∧ ¬ IllegalByte 0x3A ∧
      ¬ IllegalByte 0x30 ∧ ¬ IllegalByte 0x10 ∧ ¬ IllegalByte 0xE0 := by
  unfold IllegalByte
  and_intros <;> decide

theorem test_witness_ErrorEntryChangesStatusOnly :
    rejection .enck State.reset = some .invalidKeyLength ∧ rejection .enc State.reset = some .invalidBlockLength ∧
      rejection (.ark 0) State.reset = some .invalidScheduleLength ∧ rejection (.ark 11) ready = some .illegalCommand ∧
      State.reset.busy = false := by decide +kernel

/-- For the three causes (with `test_witness_writing`): a wrong length just beside the right one, and the priority cases,
in which both lengths are wrong. -/
theorem test_witness_LengthCauses :
    (writingWith 0xA0 17 16 44 .whole).keylen ≠ 16 ∧ (writingWith 0xE0 15 0 0 .whole).keylen ≠ 16 ∧
      (writingWith 0x10 0 15 0 .whole).blklen ≠ 16 ∧ (writingWith 0xB0 0 17 0 .whole).blklen ≠ 16 ∧
      ((writingWith 0xD0 16 0 0 .whole).keylen = 16 ∧ (writingWith 0xD0 16 0 0 .whole).blklen ≠ 16) ∧
      (writingWith 0x30 0 0 43 .whole).rklen ≠ 44 ∧ (writingWith 0x3A 0 0 45 .whole).rklen ≠ 44 ∧
      ((writingWith 0xC0 0 16 0 .whole).blklen = 16 ∧ (writingWith 0xC0 0 16 0 .whole).rklen ≠ 44) := by
  decide +kernel

/-- For the results of the commands: no command running and the lengths right, and each of them wrong. -/
theorem test_witness_Results :
    (ready.busy = false ∧ ready.keylen = 16 ∧ ready.blklen = 16 ∧ ready.rklen = 44) ∧
      (State.reset.busy = false ∧ State.reset.keylen ≠ 16 ∧ State.reset.blklen ≠ 16 ∧ State.reset.rklen ≠ 44) ∧
      ((writingWith 0xB0 16 16 0 .whole).busy = false ∧ (writingWith 0xB0 16 16 0 .whole).blklen = 16 ∧
        (writingWith 0xB0 16 16 0 .whole).rklen ≠ 44) ∧
      (writingWith 0xD0 16 0 0 .whole).keylen = 16 ∧ (writingWith 0xD0 16 0 0 .whole).blklen ≠ 16 := by decide +kernel

theorem test_witness_StatusFieldsConsistent : (0x00 : Byte) ∈ statusValues ∧ (0x44 : Byte) ∈ statusValues := by decide

/-- For the result of ARK: the rounds at the ends of both clauses. -/
theorem test_witness_ArkResult : (10 : Fin 11).val ≤ 10 ∧ 10 < (11 : BitVec 4).toNat ∧ 10 < (15 : BitVec 4).toNat := by
  decide

/-- R189: two states that agree on column 0 and on no other, and two schedules that agree at word 0 and not at word 4. -/
theorem test_witness_TransformLanes :
    (∀ r : Fin 4, ((toState keyC)[r])[0] = ((toState (keyC.set 4 0xff))[r])[0]) ∧
      (expand keyC)[4 * 0 + 0] = ((expand keyC).set 4 #v[0, 0, 0, 0])[4 * 0 + 0] ∧
      (expand keyC)[4] ≠ ((expand keyC).set 4 #v[0, 0, 0, 0])[4] := by decide +kernel

theorem test_witness_MatrixConstantProducts :
    0xae = doubleInField 0x57 ∧ 0x47 = doubleInField 0xae ∧ 0x8e = doubleInField 0x47 := by decide

theorem test_witness_RoundConstants : (1 : Nat) ≤ 8 ∧ rcon (8 + 1) = doubleInField (rcon 8) := by decide

theorem test_witness_MicroStepsAgreeWithBigStep :
    ready.busy = false ∧ rejection .enck ready = none ∧ rejection (.ark 10) ready = none := by decide +kernel

/-- A good state that runs ENC, at any of its micro-steps, with any turns to come and any script. -/
theorem running_good (idx : Nat) (h : idx < 42) (turns : List Agent) (ops : List HostOp) :
    Inv { runningAt .enc idx turns with script := ops } := by
  refine ⟨(by decide : (0x01 : Byte) ∈ statusValues), ?_, ?_⟩
  · simp [SeqMatchesBusy, runningAt, State.busy, busyFlag]
  · refine ⟨rfl, ?_, by simp [lengthChecks, runningAt, ready, Config.blockLength, Config.scheduleLength]⟩
    have : (microProgram .enc).length = 42 := by decide
    simpa [this] using h

/-- Without a host turn (no script, whatever the turns; or no turns, whatever the script), and with two polls to come. -/
theorem test_witness_RunningCommandTerminates :
    (Inv { runningAt .enc 0 [.host, .sequencer] with script := [] } ∧
        (runningAt .enc 0 [.host, .sequencer]).seq = .running .enc 0) ∧
      (Inv { runningAt .enc 41 [] with script := [.rd 0x20] } ∧ (runningAt .enc 41 []).pacing = .stepped []) ∧
      Inv { runningAt .enc 5 [.host, .host] with script := [.rd 0x31, .wait] } ∧
      ∀ op ∈ ([.rd 0x31, .wait] : List HostOp), op = .rd 0x31 ∨ op = .wait :=
  ⟨⟨running_good 0 (by decide) _ _, rfl⟩, ⟨running_good 41 (by decide) _ _, rfl⟩, running_good 5 (by decide) _ _,
    by decide⟩

/-- The sequencer's turn in the middle of ENC, with a read of DOUT waiting, and at its last micro-step. -/
theorem test_witness_MicroStepAdvancesByOne :
    (Inv { runningAt .enc 5 [.sequencer, .host] with script := [.rd 0x20] } ∧
        ({ runningAt .enc 5 [.sequencer, .host] with script := [.rd 0x20] } : State).mover = .sequencer ∧
        5 + 1 < (microProgram .enc).length) ∧
      Inv { runningAt .enc 41 [] with script := [] } ∧
      ({ runningAt .enc 41 [] with script := [] } : State).mover = .sequencer ∧
      41 + 1 = (microProgram .enc).length :=
  ⟨⟨running_good 5 (by decide) _ _, by decide +kernel, by decide⟩, running_good 41 (by decide) _ _, by decide +kernel,
    by decide⟩

theorem test_witness_PollingIsInvisible :
    Instr.enc.wellFormed = true ∧ polling.busy = false ∧ polling.pacing = .stepped [.sequencer, .host] ∧
      polling.script = .wr 0x30 (encode .enc) :: List.replicate 2 (.rd 0x31) ∧ rejection .enc polling = none ∧
      ∃ t, exec .enc polling = .next t := by
  refine ⟨rfl, rfl, rfl, rfl, by decide +kernel, ?_⟩
  rw [exec_eq_runCommand, runCommand_accepted _ rfl (by decide +kernel)]
  exact ⟨_, rfl⟩

/-- A good state with a next state. -/
theorem test_witness_StepKeepsInvariant :
    Inv State.reset ∧ ∃ t, step { State.reset with script := [.rd 0x31] } = .next t := by
  refine ⟨⟨(by decide : (0x00 : Byte) ∈ statusValues), ?_, trivial⟩, ?_⟩
  · simp [SeqMatchesBusy, State.reset]
  · obtain ⟨t, h, -⟩ := exists_next (r := step { State.reset with script := [.rd 0x31] }) (p := fun _ => true)
      (by decide +kernel)
    exact ⟨t, h⟩

/-- An expansion whose first micro-step is done, and its next state. -/
theorem test_witness_StepKeepsExpansionInvariant :
    ExpansionInv { runningAt .expand 1 [] with rc := 0x01 } ∧
      nextSat (step { runningAt .expand 1 [] with rc := 0x01 }) (fun t => t.rc == 0x02) = true := by
  refine ⟨?_, by decide +kernel⟩
  intro _ _
  exact ⟨by decide, fun _ _ => rfl⟩

/-- A good state from which a step is refused. -/
theorem test_witness_OnlyBusyAccessIsRefused :
    Inv { runningAt .enc 5 [.host] with script := [.wr 0x00 0x00] } ∧
      refusesAccess (step { runningAt .enc 5 [.host] with script := [.wr 0x00 0x00] }) 0x00 = true := by
  refine ⟨⟨(by decide : (0x01 : Byte) ∈ statusValues), ?_, rfl, by decide, by decide +kernel⟩, by decide +kernel⟩
  simp [SeqMatchesBusy, runningAt, State.busy, busyFlag]

/-- The host's turn while BUSY is 1, for a read of STATUS and of another address. -/
theorem test_witness_HostReads :
    (runningAt .enc 5 [.host]).status = 0x01 ∧
      ({ runningAt .enc 5 [.host] with script := [.rd 0x31] } : State).mover = .host ∧
      ({ runningAt .enc 5 [.host] with script := [.rd 0x20] } : State).mover = .host ∧ (0x20 : Byte) ≠ 0x31 := by
  decide +kernel

/-- Before a read of the last defined address, and a write to the first writable and to a read-only one. -/
theorem test_witness_host_accesses :
    (({ ready with script := [.rd 0xEF] } : State).busy = false ∧
        ({ ready with script := [.rd 0xEF] } : State).script = .rd 0xEF :: []) ∧
      (({ ready with script := [.wr 0x00 0xaa] } : State).busy = false ∧ (0x00 : Byte) ≠ 0x30 ∧
        ({ ready with script := [.wr 0x00 0xaa] } : State).script = .wr 0x00 0xaa :: []) ∧
      (({ ready with script := [.wr 0x31 0xaa] } : State).busy = false ∧ (0x31 : Byte) ≠ 0x30 ∧
        ({ ready with script := [.wr 0x31 0xaa] } : State).script = .wr 0x31 0xaa :: []) := by decide +kernel

/-- The reserved ranges at their ends. -/
theorem test_witness_HostReads_reserved :
    locate 0x34 = .rklen ∧ locate 0x35 = .reserved ∧ locate 0x3F = .reserved ∧ locate 0x40 = .rk 0 0 ∧
      locate 0xEF = .rk 43 3 ∧ locate 0xF0 = .reserved ∧ locate 0xFF = .reserved := by decide

/-- Addresses the host may write and may not, at the ends of each range. -/
theorem test_witness_HostWrites :
    HostWritable 0x00 ∧ HostWritable 0x1F ∧ ¬ HostWritable 0x20 ∧ ¬ HostWritable 0x2F ∧ ¬ HostWritable 0x31 ∧
      HostWritable 0x32 ∧ HostWritable 0x34 ∧ ¬ HostWritable 0x35 ∧ ¬ HostWritable 0x3F ∧ HostWritable 0x40 ∧
      HostWritable 0xEF ∧ ¬ HostWritable 0xF0 ∧ ¬ HostWritable 0xFF := by
  unfold HostWritable
  and_intros <;> decide

theorem test_witness_AddressMapHasNoAliasing : locate 0x1F ≠ .reserved ∧ Location.rk 43 3 ≠ .reserved := by decide

theorem test_witness_BusyAccessRefused :
    (runningAt .enc 5 [.host]).busy = true ∧
      ({ runningAt .enc 5 [.host] with script := [.wr 0x10 0xaa] } : State).mover = .host ∧
      ({ runningAt .enc 5 [.host] with script := [.rd 0x00] } : State).mover = .host := by decide +kernel

theorem test_witness_IdleMachineIsConstant : State.reset.busy = false ∧ State.reset.script = [] := ⟨rfl, rfl⟩

theorem test_witness_WaitAndRun :
    ({ ready with script := [.wait] } : State).mover = .host ∧ ({ ready with script := [.wait] } : State).busy = false ∧
      ({ runningAt .enc 5 [.host] with script := [.wait] } : State).mover = .host ∧
      ({ runningAt .enc 5 [.host] with script := [.wait] } : State).busy = true := by decide +kernel

theorem test_witness_WaitAndRun_run :
    ({ ready with script := Script.run .enc ++ [] } : State).busy = false ∧
      ({ ready with script := Script.run .enc ++ [] } : State).pacing = .whole ∧
      ∃ t, exec .enc { ({ ready with script := Script.run .enc ++ [] } : State) with script := .wait :: [] } = .next t := by
  refine ⟨rfl, rfl, ?_⟩
  rw [exec_eq_runCommand, runCommand_accepted _ rfl (by decide +kernel)]
  exact ⟨_, rfl⟩

/-- For the pseudo-instructions: right after reset, with such a script to run; their lengths as the statements count
them. -/
theorem test_witness_Scripts (ops : List HostOp) :
    ({ State.reset with script := ops } : State).busy = false ∧ ({ State.reset with script := ops } : State).pacing = .whole ∧
      (Script.encrypt keyC blockC).length = 52 ∧ (Script.decrypt keyC blockC).length = 52 ∧
      (Script.ldkey keyC).length = 17 ∧ (Script.ldblk keyC).length = 17 ∧ Script.rdrk.length = 176 ∧
      Script.rdout.length = 16 := by
  refine ⟨busyFlag_reset, rfl, ?_⟩
  simp [Script.encrypt, Script.decrypt, Script.ldkey, Script.ldblk, Script.run, Script.cmd, Script.rdout, Script.rdrk]

theorem test_witness_ResetValues : State.reset = State.afterReset (Config.resetData 0 none) 0 ∧ Instr.enck ∈ [Instr.expand, .enck, .deck] := by
  exact ⟨rfl, by decide⟩

/-- A reset while no command runs, and one in the middle of a command. -/
theorem test_witness_ResetAtAnyTime :
    ({ ready with script := [.rst] } : State).mover = .host ∧
      ({ runningAt .enck 40 [.host] with script := [.rst] } : State).mover = .host := by decide +kernel

theorem test_witness_AccessMatrixWrites : ∃ t, exec .enck ready = .next t ∧ writesDout .enck = true := by
  rw [exec_eq_runCommand, runCommand_accepted _ rfl (by decide +kernel)]
  exact ⟨_, rfl, rfl⟩

/-- Two states that differ, with the same operands of SB and both accepted. -/
theorem test_witness_ResultsDependOnOperandsOnly :
    nextSat (exec .sb ready) (fun t => t.status == 0x02) = true ∧
      nextSat (exec .sb { ready with key := keyA }) (fun t => t.status == 0x02) = true ∧
      ({ ready with key := keyA } : State).matrix = ready.matrix ∧ keyA ≠ keyC := by
  refine ⟨by decide +kernel, by decide +kernel, rfl, by decide⟩

/-- Steps in which each of the four inputs changes. -/
theorem test_witness_InputsChangeByHostOnly :
    nextSat (step { ready with script := [.wr 0x0F 0xaa] }) (fun t => t.key != keyC) = true ∧
      nextSat (step { ready with script := [.wr 0x10 0xaa] }) (fun t => t.din != blockC) = true ∧
      nextSat (step { ready with script := [.wr 0x32 0xaa] }) (fun t => t.keylen != 16) = true ∧
      nextSat (step { ready with script := [.wr 0x33 0xaa] }) (fun t => t.blklen != 16) = true := by decide +kernel

end Sys2Proof.Tests
end

section
/-!
PROOFS. Which turns of a machine are answered with a next state (00_scope.md R13, 70_reset_and_hazards.md R305), and the
statements of 00_scope.md: from a good state only a host access without meaning while BUSY is refused, and an idle machine
with nothing to do is constant.
-/

namespace Sys2Proof.Machine

open Sys2Proof

/-! While BUSY is 0 every operation of the outside world is answered (R220, R53, R54). -/

theorem exec_answers_of_idle {s : State} (i : Instr) (hb : s.busy = false) : ∃ t, exec i s = .next t := by
  rw [exec_eq_runCommand]
  cases hr : rejection i s with
  | some e => exact ⟨_, runCommand_rejected _ hb hr⟩
  | none => exact ⟨_, runCommand_accepted _ hb hr⟩

theorem startCommand_rejected {s : State} {c : Instr} {e : CommandError} (hb : s.busy = false)
    (hr : rejection c s = some e) : startCommand c s = .next (raiseError e s) := by
  simp [startCommand, hb, hr]

theorem startCommand_accepted {s : State} {c : Instr} (hb : s.busy = false) (hr : rejection c s = none) :
    startCommand c s = .next (acceptCommand c s) := by
  simp [startCommand, hb, hr]

theorem startCommand_answers_of_idle {s : State} (c : Instr) (hb : s.busy = false) :
    ∃ t, startCommand c s = .next t := by
  cases hr : rejection c s with
  | some e => exact ⟨_, startCommand_rejected hb hr⟩
  | none => exact ⟨_, startCommand_accepted hb hr⟩

/-- Neither an illegal byte nor a wrong length stops the machine, under either pacing. -/
theorem submitCommand_answers_of_idle {s : State} (v : Byte) (hb : s.busy = false) :
    ∃ t, submitCommand v s = .next t := by
  cases hd : decode v with
  | illegal why => exact ⟨_, submitCommand_illegal hd⟩
  | command c =>
    cases hp : s.pacing with
    | whole => rw [submitCommand_whole hd hp]; exact exec_answers_of_idle c hb
    | stepped turns => rw [submitCommand_stepped hd hp]; exact startCommand_answers_of_idle c hb

theorem hostWrite_answers_of_idle {s : State} (a v : Byte) (hb : s.busy = false) : ∃ t, hostWrite a v s = .next t := by
  by_cases ha : locate a = .cmd
  · simpa [hostWrite, hb, ha] using submitCommand_answers_of_idle v hb
  · exact ⟨_, hostWrite_register v hb ha⟩

theorem hostWait_answers (s : State) : ∃ t, hostWait s = .next t := by
  unfold hostWait
  split
  · exact ⟨_, rfl⟩
  · exact ⟨_, rfl⟩

theorem hostOp_answers_of_idle {s : State} (op : HostOp) (hb : s.busy = false) : ∃ t, hostOp op s = .next t := by
  cases op with
  | wr a v => exact hostWrite_answers_of_idle a v hb
  | rd a => exact ⟨_, hostRead_idle a hb⟩
  | wait => exact hostWait_answers s
  | rst => exact ⟨_, rfl⟩

/-! While BUSY is 1 an operation is answered exactly when it has a meaning (R305). -/

/-- STATUS stands at one address alone (20_memory.md R51). -/
theorem locate_eq_status_iff (a : Byte) : locate a = .status ↔ a = 0x31 := by
  constructor
  · intro h
    unfold locate at h
    split_ifs at h with _ _ _ _ hstatus
    exact BitVec.eq_of_toNat_eq hstatus
  · rintro rfl
    exact locate_status

theorem hostOp_answers_of_meaningful {op : HostOp} (s : State) (hm : meaningfulWhileBusy op = true) :
    ∃ t, hostOp op s = .next t := by
  cases op with
  | wr a v => simp [meaningfulWhileBusy] at hm
  | rd a =>
    obtain rfl : a = 0x31 := by simpa [meaningfulWhileBusy] using hm
    exact ⟨_, hostRead_status s⟩
  | wait => exact hostWait_answers s
  | rst => exact ⟨_, rfl⟩

theorem hostOp_refused_of_busy {s : State} {op : HostOp} (hb : s.busy = true) (hm : meaningfulWhileBusy op = false) :
    ∃ a, hostOp op s = .refused (.hostAccessWhileBusy a) := by
  cases op with
  | wr a v => exact ⟨a, hostWrite_busy a v hb⟩
  | rd a =>
    have ha : locate a ≠ .status := by simpa [locate_eq_status_iff, meaningfulWhileBusy] using hm
    exact ⟨a, hostRead_busy hb ha⟩
  | wait => simp [meaningfulWhileBusy] at hm
  | rst => simp [meaningfulWhileBusy] at hm

/-! The sequencer's turn in a good state (R33, R242). -/

theorem busy_of_mover_sequencer {s : State} (hm : s.mover = .sequencer) : s.busy = true := by
  cases hb : s.busy with
  | true => rfl
  | false => simp [mover_idle hb] at hm

/-- While BUSY is 1 the SEQ of a good state names a micro-step of the running command. -/
theorem Inv.exists_microOp {s : State} (hinv : Inv s) (hb : s.busy = true) :
    ∃ c idx u, s.seq = .running c idx ∧ (microProgram c)[idx]? = some u := by
  cases hseq : s.seq with
  | idle => simp [hinv.seqMatchesBusy.mp hseq] at hb
  | running c idx =>
    have hprog := hinv.seqOnProgram
    simp only [SeqOnProgram, hseq] at hprog
    obtain ⟨-, hidx, -⟩ := hprog
    exact ⟨c, idx, _, rfl, List.getElem?_eq_getElem hidx⟩

theorem microStep_answers {s : State} {c : Instr} {idx : Nat} {u : MicroOp} (hseq : s.seq = .running c idx)
    (hu : (microProgram c)[idx]? = some u) : ∃ t, microStep s = .next t := by
  by_cases hlast : idx + 1 = (microProgram c).length
  · exact ⟨_, microStep_last hseq hu hlast⟩
  · exact ⟨_, microStep_advance hseq hu hlast⟩

/-! One step of a good state. -/

/-- A host access that the spec gives no meaning: it comes on the host's turn while BUSY is 1 (R305). -/
def MeaninglessAccess (s : State) (a : Byte) : Prop :=
  s.busy = true ∧ s.mover = .host ∧
    ∃ op rest, s.script = op :: rest ∧ meaningfulWhileBusy op = false ∧ step s = .refused (.hostAccessWhileBusy a)

/-- A step from a good state is answered with a next state, or it is refused as an access without meaning. -/
theorem Inv.step_answers_or_meaningless {s : State} (hinv : Inv s) :
    (∃ t, step s = .next t) ∨ ∃ a, MeaninglessAccess s a := by
  obtain ⟨hm, hstep⟩ | ⟨-, -, -, hstep⟩ | ⟨op, rest, hm, hs, hstep⟩ := step_cases s
  · left
    obtain ⟨c, idx, u, hseq, hu⟩ := hinv.exists_microOp (busy_of_mover_sequencer hm)
    rw [hstep]
    exact microStep_answers ((useTurn_seq s).trans hseq) hu
  · exact .inl ⟨s, hstep⟩
  · have hbusy : (s.useTurn.withScript rest).busy = s.busy := useTurn_busy s
    cases hb : s.busy with
    | false => exact .inl (hstep ▸ hostOp_answers_of_idle op (hbusy.trans hb))
    | true =>
      cases hmean : meaningfulWhileBusy op with
      | true => exact .inl (hstep ▸ hostOp_answers_of_meaningful _ hmean)
      | false =>
        obtain ⟨a, ha⟩ := hostOp_refused_of_busy (hbusy.trans hb) hmean
        exact .inr ⟨a, hb, hm, op, rest, hs, hmean, hstep.trans ha⟩

end Sys2Proof.Machine

namespace Sys2Proof.Proofs

open Sys2Proof Sys2Proof.Machine

/-- Settles O46: a good state's step answers a next state or is an access without meaning, and the refusal then is that
access's. -/
theorem onlyBusyAccessIsRefused : Obligations.OnlyBusyAccessIsRefused := by
  unfold Obligations.OnlyBusyAccessIsRefused
  intro s hinv
  obtain ⟨t, hnext⟩ | ⟨a, hb, hm, op, rest, hs, hmean, hrefused⟩ := hinv.step_answers_or_meaningless
  · simp [hnext]
  · refine ⟨by simp [hrefused], fun x hx => ⟨hb, hm, op, rest, a, hs, hmean, ?_⟩⟩
    simpa [hrefused, eq_comm] using hx

/-- Settles O51: with BUSY 0 the host moves, uses up no turn, and has no operation to make. -/
theorem idleMachineIsConstant : Obligations.IdleMachineIsConstant := by
  unfold Obligations.IdleMachineIsConstant
  intro s hb hs
  obtain ⟨hm, -⟩ | ⟨-, -, -, hstep⟩ | ⟨op, rest, -, hcons, -⟩ := step_cases s
  · simp [mover_idle hb] at hm
  · exact hstep
  · simp [hs] at hcons

end Sys2Proof.Proofs
end

section
/-!
PROOFS. The state and what changes it (10_state.md): the address map names every register byte once (R51), everything a
step can do when it answers a next state, the invariant of STATUS and SEQ and that of a running key expansion, and what
each command reads and writes (R39).
-/

namespace Sys2Proof.Machine

open Sys2Proof Sys2Proof.Claims

/-! The address map (20_memory.md R51): `locate` and `Location.address` undo each other. -/

theorem address_locate {a : Byte} (h : locate a ≠ .reserved) : (locate a).address = some a := by
  revert h
  unfold locate
  split_ifs <;> simp [Location.address] <;> bv_omega

theorem locate_address {a : Byte} {l : Location} (h : l.address = some a) : locate a = l := by
  cases l with
  | key n | din n | dout n => cases h; revert n; decide
  | rk i k => cases h; revert i k; decide +kernel
  | cmd | status | keylen | blklen | rklen => cases h; decide
  | reserved => cases h

theorem locate_injective {a b : Byte} (ha : locate a ≠ .reserved) (h : locate a = locate b) : a = b := by
  have hb : (locate b).address = some b := address_locate (h ▸ ha)
  rw [← h, address_locate ha] at hb
  exact Option.some.inj hb

theorem address_isSome {l : Location} (hl : l ≠ .reserved) : ∃ a, l.address = some a := by
  cases l with
  | reserved => exact absurd rfl hl
  | _ => exact ⟨_, rfl⟩

/-- A register byte stands at its own address alone. -/
theorem locate_eq_iff {a b : Byte} {l : Location} (hl : l.address = some b) : locate a = l ↔ a = b := by
  constructor
  · intro h
    have hdefined : locate a ≠ .reserved := by
      rintro hreserved
      rw [← h, hreserved] at hl
      cases hl
    exact locate_injective hdefined (h.trans (locate_address hl).symm)
  · rintro rfl
    exact locate_address hl

/-! The addresses of the registers of several bytes (R51). -/

theorem toNat_of_locate_key {a : Byte} {n : Fin 16} (h : locate a = .key n) : a.toNat < 0x10 := by
  obtain rfl := (locate_eq_iff rfl).mp h
  simp
  omega

theorem toNat_of_locate_din {a : Byte} {n : Fin 16} (h : locate a = .din n) : 0x10 ≤ a.toNat ∧ a.toNat < 0x20 := by
  obtain rfl := (locate_eq_iff rfl).mp h
  simp
  omega

theorem toNat_of_locate_dout {a : Byte} {n : Fin 16} (h : locate a = .dout n) : 0x20 ≤ a.toNat ∧ a.toNat < 0x30 := by
  obtain rfl := (locate_eq_iff rfl).mp h
  simp
  omega

theorem toNat_of_locate_rk {a : Byte} {i : Fin 44} {k : Fin 4} (h : locate a = .rk i k) :
    0x40 ≤ a.toNat ∧ a.toNat < 0xF0 := by
  obtain rfl := (locate_eq_iff rfl).mp h
  simp
  omega

/-! Everything each operation of the outside world can do when it answers a next state (R53, R54, R91, R220). -/

theorem hostRead_next {a : Byte} {s t : State} (h : hostRead a s = .next t) :
    t = s.withReads (s.reads ++ [readByte s a]) := by
  unfold hostRead at h
  split at h <;> cases h
  rfl

theorem hostWait_next {s t : State} (h : hostWait s = .next t) :
    t = s.withScript (.wait :: s.script) ∨ t = s.withReads (s.reads ++ [s.status]) := by
  unfold hostWait at h
  split at h <;> cases h
  · exact .inl rfl
  · exact .inr rfl

theorem hostWrite_next {a v : Byte} {s t : State} (h : hostWrite a v s = .next t) :
    s.busy = false ∧
      ((locate a ≠ .cmd ∧ t = writeByte s a v) ∨ (a = 0x30 ∧ submitCommand v s = .next t)) := by
  cases hb : s.busy with
  | true => simp [hostWrite_busy a v hb] at h
  | false =>
    refine ⟨rfl, ?_⟩
    by_cases ha : locate a = .cmd
    · obtain rfl : a = 0x30 := (locate_eq_iff rfl).mp ha
      exact .inr ⟨rfl, hostWrite_cmd v hb ▸ h⟩
    · rw [hostWrite_register v hb ha] at h
      cases h
      exact .inl ⟨ha, rfl⟩

/-- Why byte `v`, written to CMD, is rejected with error `e` (R220, R265). -/
def ByteRejected (s : State) (v : Byte) (e : CommandError) : Prop :=
  (∃ why, decode v = .illegal why ∧ e = .illegalCommand) ∨ ∃ c, decode v = .command c ∧ rejection c s = some e

theorem submitCommand_next {v : Byte} {s t : State} (h : submitCommand v s = .next t) :
    (∃ e, ByteRejected s v e ∧ t = raiseError e s) ∨
      ∃ c, decode v = .command c ∧ rejection c s = none ∧
        ((s.pacing = .whole ∧ t = completeCommand (effectOf c s)) ∨
          (s.pacing ≠ .whole ∧ t = acceptCommand c s)) := by
  cases hd : decode v with
  | illegal why =>
    rw [submitCommand_illegal hd] at h
    cases h
    exact .inl ⟨_, .inl ⟨why, hd, rfl⟩, rfl⟩
  | command c =>
    cases hp : s.pacing with
    | whole =>
      rw [submitCommand_whole hd hp] at h
      obtain ⟨-, ⟨e, hr, rfl⟩ | ⟨hr, rfl⟩⟩ := exec_next h
      · exact .inl ⟨e, .inr ⟨c, hd, hr⟩, rfl⟩
      · exact .inr ⟨c, rfl, hr, .inl ⟨rfl, rfl⟩⟩
    | stepped turns =>
      rw [submitCommand_stepped hd hp] at h
      obtain ⟨-, ⟨e, hr, rfl⟩ | ⟨hr, rfl⟩⟩ := startCommand_next h
      · exact .inl ⟨e, .inr ⟨c, hd, hr⟩, rfl⟩
      · exact .inr ⟨c, rfl, hr, .inr ⟨by simp, rfl⟩⟩

/-! Everything a step can do when it answers a next state. -/

/-- The ways a turn takes the machine from `s` to a next state. -/
inductive Turn (s : State) : State → Prop where
  /-- Nothing, a read or a poll: the core stays as it is. -/
  | observe (script : List HostOp) (pacing : Pacing) (reads : List Byte) :
      Turn s (((s.withScript script).withPacing pacing).withReads reads)
  /-- R300: an rst. -/
  | reset (rest : List HostOp) (hm : s.mover = .host) (hs : s.script = .rst :: rest) :
      Turn s (applyReset (s.useTurn.withScript rest))
  /-- R54: a write to an address other than CMD's. -/
  | write (a v : Byte) (rest : List HostOp) (hb : s.busy = false) (hs : s.script = .wr a v :: rest)
      (ha : locate a ≠ .cmd) : Turn s (writeByte (s.withScript rest) a v)
  /-- R220: a command byte rejected. -/
  | reject (v : Byte) (e : CommandError) (rest : List HostOp) (hb : s.busy = false) (hs : s.script = .wr 0x30 v :: rest)
      (he : ByteRejected s v e) : Turn s (raiseError e (s.withScript rest))
  /-- R224: a command run whole. -/
  | execute (v : Byte) (c : Instr) (rest : List HostOp) (hb : s.busy = false) (hs : s.script = .wr 0x30 v :: rest)
      (hp : s.pacing = .whole) (hd : decode v = .command c) (hr : rejection c s = none) :
      Turn s (completeCommand (effectOf c (s.withScript rest)))
  /-- R220: a command accepted, to be run by later micro-steps. -/
  | accept (v : Byte) (c : Instr) (rest : List HostOp) (hb : s.busy = false) (hs : s.script = .wr 0x30 v :: rest)
      (hp : s.pacing ≠ .whole) (hd : decode v = .command c) (hr : rejection c s = none) :
      Turn s (acceptCommand c (s.withScript rest))
  /-- R241: a micro-step that is not its program's last. -/
  | advance (c : Instr) (idx : Nat) (u : MicroOp) (hm : s.mover = .sequencer) (hseq : s.seq = .running c idx)
      (hu : (microProgram c)[idx]? = some u) (hlast : idx + 1 ≠ (microProgram c).length) :
      Turn s ((microEffect u (s.withPacing s.pacing.afterTurn)).withSeq (.running c (idx + 1)))
  /-- R223: a micro-step that is its program's last. -/
  | complete (c : Instr) (idx : Nat) (u : MicroOp) (hm : s.mover = .sequencer) (hseq : s.seq = .running c idx)
      (hu : (microProgram c)[idx]? = some u) (hlast : idx + 1 = (microProgram c).length) :
      Turn s (completeCommand (microEffect u (s.withPacing s.pacing.afterTurn)))

theorem Turn.of_microStep {s t : State} (hm : s.mover = .sequencer)
    (h : microStep (s.withPacing s.pacing.afterTurn) = .next t) : Turn s t := by
  obtain ⟨c, idx, u, hseq, hu, ⟨hlast, rfl⟩ | ⟨hlast, rfl⟩⟩ := microStep_next h
  · exact .complete c idx u hm hseq hu hlast
  · exact .advance c idx u hm hseq hu hlast

theorem Turn.of_submitCommand {s t : State} {v : Byte} {rest : List HostOp} (hb : s.busy = false)
    (hs : s.script = .wr 0x30 v :: rest) (h : submitCommand v (s.withScript rest) = .next t) : Turn s t := by
  obtain ⟨e, he, rfl⟩ | ⟨c, hd, hr, ⟨hp, rfl⟩ | ⟨hp, rfl⟩⟩ := submitCommand_next h
  · exact .reject v e rest hb hs he
  · exact .execute v c rest hb hs hp hd hr
  · exact .accept v c rest hb hs hp hd hr

theorem Turn.of_hostWrite {s t : State} {a v : Byte} {rest : List HostOp} (hs : s.script = .wr a v :: rest)
    (h : hostWrite a v (s.useTurn.withScript rest) = .next t) : Turn s t := by
  obtain ⟨hbusy, hwrite⟩ := hostWrite_next h
  have hb : s.busy = false := (useTurn_busy s).symm.trans hbusy
  rw [useTurn_idle hb] at hwrite
  obtain ⟨ha, rfl⟩ | ⟨rfl, hsubmit⟩ := hwrite
  · exact .write a v rest hb hs ha
  · exact .of_submitCommand hb hs hsubmit

theorem Turn.of_hostOp {s t : State} {op : HostOp} {rest : List HostOp} (hm : s.mover = .host)
    (hs : s.script = op :: rest) (h : hostOp op (s.useTurn.withScript rest) = .next t) : Turn s t := by
  cases op with
  | wr a v => exact .of_hostWrite hs h
  | rd a =>
    obtain ⟨p, hp⟩ := useTurn_eq_withPacing s
    rw [hp] at h
    rw [hostRead_next h]
    exact .observe rest p _
  | wait =>
    obtain ⟨p, hp⟩ := useTurn_eq_withPacing s
    rw [hp] at h
    obtain rfl | rfl := hostWait_next h
    · exact .observe (.wait :: rest) p s.reads
    · exact .observe rest p _
  | rst =>
    cases h
    exact .reset rest hm hs

/-- The inversion of `step`. -/
theorem step_next {s t : State} (h : step s = .next t) : Turn s t := by
  obtain ⟨hm, hstep⟩ | ⟨-, -, -, hstep⟩ | ⟨op, rest, hm, hs, hstep⟩ := step_cases s
  · rw [hstep, useTurn_busy_eq (busy_of_mover_sequencer hm)] at h
    exact .of_microStep hm h
  · cases hstep.symm.trans h
    exact .observe s.script s.pacing s.reads
  · exact .of_hostOp hm hs (hstep ▸ h)

/-! The invariant of STATUS and SEQ (10_state.md R31, R33). -/

theorem StatusLegal.of_status_eq {s t : State} (h : StatusLegal s) (heq : t.status = s.status) : StatusLegal t := by
  simpa [StatusLegal, heq] using h

theorem busy_eq_of_status_eq {s t : State} (heq : t.status = s.status) : t.busy = s.busy := congrArg busyFlag heq

/-- An idle core with a legal STATUS is good, whatever its registers hold. -/
theorem Inv.of_idle {s : State} (hlegal : StatusLegal s) (hb : s.busy = false) (hseq : s.seq = .idle) : Inv s where
  statusLegal := hlegal
  seqMatchesBusy := by simp [SeqMatchesBusy, hb, hseq]
  seqOnProgram := by simp [SeqOnProgram, hseq]

theorem Inv.of_running {s : State} {c : Instr} {idx : Nat} (hlegal : StatusLegal s) (hb : s.busy = true)
    (hseq : s.seq = .running c idx) (hwf : c.wellFormed = true) (hidx : idx < (microProgram c).length)
    (hlen : firstFailure s (lengthChecks c) = none) : Inv s where
  statusLegal := hlegal
  seqMatchesBusy := by simp [SeqMatchesBusy, hb, hseq]
  seqOnProgram := by simp [SeqOnProgram, hseq, hwf, hidx, hlen]

theorem Inv.seq_of_idle {s : State} (hinv : Inv s) (hb : s.busy = false) : s.seq = .idle :=
  hinv.seqMatchesBusy.mpr hb

theorem Inv.running {s : State} {c : Instr} {idx : Nat} (hinv : Inv s) (hseq : s.seq = .running c idx) :
    c.wellFormed = true ∧ idx < (microProgram c).length ∧ firstFailure s (lengthChecks c) = none := by
  simpa [SeqOnProgram, hseq] using hinv.seqOnProgram

theorem resetStatus_legal : resetStatus ∈ statusValues := by decide
theorem runningStatus_legal : runningStatus ∈ statusValues := by decide
theorem completedStatus_legal : completedStatus ∈ statusValues := by decide
theorem errorStatus_legal (e : CommandError) : errorStatus e ∈ statusValues := by cases e <;> decide

/-- Completion always leads to a good state (R223). -/
theorem inv_completeCommand (s : State) : Inv (completeCommand s) :=
  .of_idle completedStatus_legal busyFlag_completed rfl

/-- Error entry leads to a good state from one whose SEQ is IDLE (R268). -/
theorem inv_raiseError {s : State} (e : CommandError) (hseq : s.seq = .idle) : Inv (raiseError e s) :=
  .of_idle (errorStatus_legal e) (busyFlag_error e) hseq

theorem rejection_eq_none_iff {c : Instr} {s : State} :
    rejection c s = none ↔ c.wellFormed = true ∧ firstFailure s (lengthChecks c) = none := by
  cases h : c.wellFormed <;> simp [rejection, h]

/-- A command that the decoder makes has a micro-program (R242). -/
theorem microProgram_length_pos {c : Instr} (h : c.wellFormed = true) : 0 < (microProgram c).length := by
  cases c with
  | ark r =>
    obtain ⟨round, hround, -⟩ := roundIndex_eq_some (by simpa [Instr.wellFormed] using h)
    simp [microProgram, arkProgram, hround]
  | _ => simp [microProgram, expandProgram, encProgram, decProgram]

/-- Acceptance leads to a good state (R220). -/
theorem inv_acceptCommand {c : Instr} {s : State} (hr : rejection c s = none) : Inv (acceptCommand c s) := by
  obtain ⟨hwf, hlen⟩ := rejection_eq_none_iff.mp hr
  exact .of_running runningStatus_legal busyFlag_running rfl hwf (microProgram_length_pos hwf) hlen

/-! A host write to a register (R54). -/

@[simp] theorem writeByte_status (s : State) (a v : Byte) : (writeByte s a v).status = s.status := by
  unfold writeByte
  cases locate a <;> rfl

@[simp] theorem writeByte_seq (s : State) (a v : Byte) : (writeByte s a v).seq = s.seq := by
  unfold writeByte
  cases locate a <;> rfl

/-- No data effect writes RKLEN but the one that finishes an expansion, which sets it to 44 (R241). -/
theorem microEffect_rklen (u : MicroOp) (s : State) :
    (microEffect u s).rklen = s.rklen ∨ (microEffect u s).rklen = Config.scheduleLength := by
  cases u with
  | kw j =>
    simp only [microEffect, kwEffect_eq]
    split
    · exact .inr rfl
    · exact .inl rfl
  | _ =>
    left
    simp only [microEffect, loadEffect, storeEffect, arkEffect, sbEffect, srEffect, mcEffect, isbEffect, isrEffect,
      imcEffect, kinitEffect, State.withMatrix_rklen, State.withDout_rklen, State.withRk_rklen, State.withRc_rklen]

/-- A length that was right stays right: the lengths of a running command hold until it completes (R273). -/
theorem passes_microEffect {x : LengthCheck} {s : State} (u : MicroOp) (h : x.passes s = true) :
    x.passes (microEffect u s) = true := by
  cases x with
  | keyLength => simpa using h
  | blockLength => simpa using h
  | scheduleLength =>
    obtain hkeep | hset := microEffect_rklen u s
    · simpa [hkeep] using h
    · simp [hset]

theorem firstFailure_eq_none_iff {s : State} {checks : List LengthCheck} :
    firstFailure s checks = none ↔ ∀ x ∈ checks, x.passes s = true := by
  simp [firstFailure]

theorem firstFailure_microEffect {s : State} {checks : List LengthCheck} (u : MicroOp) (h : firstFailure s checks = none) :
    firstFailure (microEffect u s) checks = none :=
  firstFailure_eq_none_iff.mpr fun x hx => passes_microEffect u (firstFailure_eq_none_iff.mp h x hx)

/-- A micro-step that is not the last leads to a good state: SEQ stays on the program (R241). -/
theorem inv_advance {s : State} {c : Instr} {idx : Nat} {p : Pacing} (u : MicroOp) (hinv : Inv s) (hb : s.busy = true)
    (hseq : s.seq = .running c idx) (hlast : idx + 1 ≠ (microProgram c).length) :
    Inv ((microEffect u (s.withPacing p)).withSeq (.running c (idx + 1))) := by
  obtain ⟨hwf, hidx, hlen⟩ := hinv.running hseq
  have hstatus : (microEffect u (s.withPacing p)).status = s.status := by simp
  exact .of_running (hinv.statusLegal.of_status_eq hstatus) ((busy_eq_of_status_eq hstatus).trans hb) rfl hwf (by omega)
    (firstFailure_microEffect u hlen)

theorem Turn.keeps_inv {s t : State} (hinv : Inv s) (h : Turn s t) : Inv t := by
  cases h with
  | observe => exact ⟨hinv.statusLegal, hinv.seqMatchesBusy, hinv.seqOnProgram⟩
  | reset => exact .of_idle resetStatus_legal busyFlag_reset rfl
  | write a v rest hb =>
    have hstatus := writeByte_status (s.withScript rest) a v
    exact .of_idle (hinv.statusLegal.of_status_eq hstatus) ((busy_eq_of_status_eq hstatus).trans hb)
      ((writeByte_seq _ a v).trans (hinv.seq_of_idle hb))
  | reject v e rest hb => exact inv_raiseError e (hinv.seq_of_idle hb)
  | execute => exact inv_completeCommand _
  | accept v c rest hb hs hp hd hr => exact inv_acceptCommand hr
  | advance c idx u hm hseq hu hlast => exact inv_advance u hinv (busy_of_mover_sequencer hm) hseq hlast
  | complete => exact inv_completeCommand _

/-! `Expand` word by word (42_key_schedule.md R144). -/

theorem scheduleTemp_congr {rc : Byte} {j : Fin 40} {V W : Schedule} (h : V[j.val + 3] = W[j.val + 3]) :
    scheduleTemp rc j V = scheduleTemp rc j W := by
  simp only [scheduleTemp, h]

/-- One turn of `expand`'s loop. -/
def expandStep (W : Schedule) (j : Fin 40) : Schedule := expandWord (rcon ((j.val + 4) / 4)) j W

/-- `Expand(key)` after the loop's first `n` words, 4 .. n + 3. -/
def expandUpTo (key : Block) (n : Nat) : Schedule :=
  ((List.finRange 40).take n).foldl expandStep (loadKeyWords key zeroSchedule)

theorem expandUpTo_forty (key : Block) : expandUpTo key 40 = expand key := by
  simp only [expandUpTo, expand, List.take_of_length_le, List.length_finRange, le_refl]
  rfl

theorem expandUpTo_succ (key : Block) (j : Fin 40) :
    expandUpTo key (j.val + 1) = expandStep (expandUpTo key j.val) j := by
  simp [expandUpTo, List.take_add_one]

/-- The loop's later turns leave the words made so far. -/
theorem expandUpTo_word {key : Block} {i n : Nat} (hi : i < 44) (hn : n ≤ 40) (hin : i < n + 4) :
    (expandUpTo key n)[i] = (expand key)[i] := by
  induction hn using Nat.decreasingInduction with
  | self => rw [expandUpTo_forty]
  | of_succ m hm ih =>
    rw [← ih (by omega), expandUpTo_succ key ⟨m, hm⟩, expandStep, expandWord_word, if_neg (by simp only; omega)]

/-- R144: words 0..3 of `Expand(key)` are the key's. -/
theorem expand_keyWord (key : Block) (i : Fin 4) : (expand key)[i.val] = keyWord key i := by
  rw [← expandUpTo_word (n := 0) (by omega) (by omega) (by omega)]
  simp [expandUpTo, loadKeyWords_word]

/-- R144: word `j + 4` of `Expand(key)`, from words `j` and `j + 3`. -/
theorem expand_word (key : Block) (j : Fin 40) :
    (expand key)[j.val + 4] =
      xorWord (expand key)[j.val] (scheduleTemp (rcon ((j.val + 4) / 4)) j (expand key)) := by
  rw [← expandUpTo_word (i := j.val + 4) (n := j.val + 1) (by omega) (by omega) (by omega), expandUpTo_succ, expandStep,
    expandWord_word, if_pos rfl, expandUpTo_word (by omega) (by omega) (by omega),
    scheduleTemp_congr (expandUpTo_word (by omega) (by omega) (by omega))]

/-! The invariant of a running expansion (R34, R150, R245). -/

/-- `rc` and `W` are RC and RK before micro-step `idx` of an expansion of `key`: what `ExpansionInv` says of them. -/
def ExpandedBefore (key : Block) (idx : Nat) (rc : Byte) (W : Schedule) : Prop :=
  rc = rcon (1 + doublingsBefore idx) ∧ ∀ i : Fin 44, i.val < idx + 3 → W[i] = (expand key)[i]

theorem expansionInv_running {s : State} {c : Instr} {idx : Nat} (hseq : s.seq = .running c idx) :
    ExpansionInv s ↔ (expandsFirst c = true → 1 ≤ idx → ExpandedBefore s.key idx s.rc s.rk) := by
  simp only [ExpansionInv, hseq, ExpandedBefore]

theorem expansionInv_of_idle {s : State} (hseq : s.seq = .idle) : ExpansionInv s := by
  simp [ExpansionInv, hseq]

theorem expandedBefore_kinit (key : Block) (W : Schedule) : ExpandedBefore key 1 0x01 (loadKeyWords key W) := by
  refine ⟨by decide, fun i hi => ?_⟩
  simp only [Fin.getElem_fin, loadKeyWords_word, dif_pos hi]
  exact (expand_keyWord key ⟨i.val, hi⟩).symm

/-- RC is doubled once more by `uKW(j + 4)` exactly when that word takes a round constant. -/
theorem doublingsBefore_add_two (j : Fin 40) :
    doublingsBefore (j.val + 2) = doublingsBefore (j.val + 1) + if takesRoundConstant j then 1 else 0 := by
  simp only [doublingsBefore, takesRoundConstant, beq_iff_eq]
  split <;> omega

/-- The constant next to be used before `uKW(j + 4)` is that of word `j + 4`. -/
theorem doublingsBefore_of_takesRoundConstant {j : Fin 40} (h : takesRoundConstant j = true) :
    1 + doublingsBefore (j.val + 1) = (j.val + 4) / 4 := by
  simp only [takesRoundConstant, beq_iff_eq] at h
  simp only [doublingsBefore]
  omega

theorem nextRoundConstant_rcon (j : Fin 40) :
    nextRoundConstant j (rcon (1 + doublingsBefore (j.val + 1))) = rcon (1 + doublingsBefore (j.val + 2)) := by
  rw [doublingsBefore_add_two, nextRoundConstant, Nat.add_comm 1, Nat.add_comm 1]
  split <;> rfl

/-- A word that takes no round constant does not see which one is offered. -/
theorem scheduleTemp_rcon (j : Fin 40) (W : Schedule) :
    scheduleTemp (rcon (1 + doublingsBefore (j.val + 1))) j W = scheduleTemp (rcon ((j.val + 4) / 4)) j W := by
  unfold scheduleTemp
  split
  · rename_i h
    rw [doublingsBefore_of_takesRoundConstant h]
  · rfl

theorem expandedBefore_kw {key : Block} {j : Fin 40} {rc : Byte} {W : Schedule}
    (h : ExpandedBefore key (j.val + 1) rc W) :
    ExpandedBefore key (j.val + 2) (nextRoundConstant j rc) (expandWord rc j W) := by
  obtain ⟨rfl, hword⟩ := h
  refine ⟨nextRoundConstant_rcon j, fun i hi => ?_⟩
  rw [Fin.getElem_fin, expandWord_word]
  split
  · rename_i hji
    have hlow : W[j.val] = (expand key)[j.val] := hword ⟨j.val, by omega⟩ (by simp only; omega)
    have hhigh : W[j.val + 3] = (expand key)[j.val + 3] := hword ⟨j.val + 3, by omega⟩ (by simp only; omega)
    simp only [Fin.getElem_fin, ← hji]
    rw [expand_word, scheduleTemp_rcon, hlow, scheduleTemp_congr hhigh]
  · exact hword i (by omega)

/-- Once the 41 micro-steps of the expansion are over, one that leaves RK and RC alone keeps what they hold. -/
theorem expandedBefore_succ_of_done {key : Block} {idx : Nat} {rc : Byte} {W : Schedule} (hidx : 41 ≤ idx)
    (h : ExpandedBefore key idx rc W) : ExpandedBefore key (idx + 1) rc W := by
  obtain ⟨hrc, hword⟩ := h
  have hsame : doublingsBefore (idx + 1) = doublingsBefore idx := by
    simp only [doublingsBefore]
    omega
  exact ⟨hsame ▸ hrc, fun i _ => hword i (by omega)⟩

/-! The micro-programs that begin with an expansion (R242). -/

/-- The micro-operations that write neither RK nor RC (R39, R240). -/
def leavesSchedule : MicroOp → Bool
  | .kinit | .kw _ => false
  | .load | .store | .ark _ | .sb | .sr | .mc | .isb | .isr | .imc => true

theorem microEffect_of_leavesSchedule {u : MicroOp} (s : State) (h : leavesSchedule u = true) :
    (microEffect u s).rc = s.rc ∧ (microEffect u s).rk = s.rk := by
  cases u with
  | kinit | kw j => simp [leavesSchedule] at h
  | _ => simp [microEffect, loadEffect, storeEffect, arkEffect, sbEffect, srEffect, mcEffect, isbEffect, isrEffect,
      imcEffect]

theorem length_expandProgram : expandProgram.length = 41 := by simp [expandProgram]

theorem expandProgram_zero : expandProgram[0]? = some .kinit := rfl

theorem expandProgram_succ (j : Fin 40) : expandProgram[j.val + 1]? = some (.kw j) := by
  simp [expandProgram]

/-- An expansion, and then a cipher's program that writes neither RK nor RC. -/
theorem microProgram_of_expandsFirst {c : Instr} (h : expandsFirst c = true) :
    ∃ tail, microProgram c = expandProgram ++ tail ∧ ∀ u ∈ tail, leavesSchedule u = true := by
  cases c with
  | expand => exact ⟨[], by simp [microProgram]⟩
  | enck => exact ⟨encProgram, rfl, by decide⟩
  | deck => exact ⟨decProgram, rfl, by decide⟩
  | _ => simp [expandsFirst] at h

/-- Every micro-step of a command that expands brings RC and RK to what the next one needs. -/
theorem expandedBefore_microEffect {s : State} {c : Instr} {idx : Nat} {u : MicroOp} (hexp : expandsFirst c = true)
    (hu : (microProgram c)[idx]? = some u) (h : 1 ≤ idx → ExpandedBefore s.key idx s.rc s.rk) :
    ExpandedBefore s.key (idx + 1) (microEffect u s).rc (microEffect u s).rk := by
  obtain ⟨tail, hprog, htail⟩ := microProgram_of_expandsFirst hexp
  rw [hprog] at hu
  by_cases hdone : 41 ≤ idx
  · rw [List.getElem?_append_right (length_expandProgram ▸ hdone)] at hu
    obtain ⟨hrc, hrk⟩ := microEffect_of_leavesSchedule s (htail u (List.mem_of_getElem? hu))
    rw [hrc, hrk]
    exact expandedBefore_succ_of_done hdone (h (by omega))
  · rw [List.getElem?_append_left (by rw [length_expandProgram]; omega)] at hu
    cases idx with
    | zero =>
      obtain rfl : MicroOp.kinit = u := Option.some.inj hu
      exact expandedBefore_kinit s.key s.rk
    | succ n =>
      obtain rfl : MicroOp.kw ⟨n, by omega⟩ = u := by simpa [expandProgram_succ ⟨n, by omega⟩] using hu
      simp only [microEffect, kwEffect_eq]
      exact expandedBefore_kw (j := ⟨n, by omega⟩) (h (by omega))

theorem expansionInv_advance {s : State} {c : Instr} {idx : Nat} {u : MicroOp} {p : Pacing} (hinv : ExpansionInv s)
    (hseq : s.seq = .running c idx) (hu : (microProgram c)[idx]? = some u) :
    ExpansionInv ((microEffect u (s.withPacing p)).withSeq (.running c (idx + 1))) := by
  rw [expansionInv_running (State.withSeq_seq _ _)]
  intro hexp _
  simpa using expandedBefore_microEffect (s := s.withPacing p) hexp hu ((expansionInv_running hseq).mp hinv hexp)

/-- Before its first micro-step a command has expanded nothing. -/
theorem expansionInv_acceptCommand (c : Instr) (s : State) : ExpansionInv (acceptCommand c s) := by
  rw [expansionInv_running (s := acceptCommand c s) rfl]
  intro _ h
  omega

theorem Turn.keeps_expansionInv {s t : State} (hinv : Inv s) (hexp : ExpansionInv s) (h : Turn s t) : ExpansionInv t := by
  cases h with
  | observe => exact hexp
  | reset => exact expansionInv_of_idle rfl
  | write a v rest hb => exact expansionInv_of_idle ((writeByte_seq _ a v).trans (hinv.seq_of_idle hb))
  | reject v e rest hb => exact expansionInv_of_idle (hinv.seq_of_idle hb)
  | execute => exact expansionInv_of_idle rfl
  | accept v c => exact expansionInv_acceptCommand c _
  | advance c idx u hm hseq hu => exact expansionInv_advance hexp hseq hu
  | complete => exact expansionInv_of_idle rfl

/-! What each command's whole effect leaves unchanged (R39, the blank entries). -/

theorem effectOf_matrix {c : Instr} (s : State) (h : writesMatrix c = false) : (effectOf c s).matrix = s.matrix := by
  cases c with
  | store | expand => simp [effectOf, storeEffect, expandEffect]
  | _ => simp [writesMatrix] at h

theorem effectOf_dout {c : Instr} (s : State) (h : writesDout c = false) : (effectOf c s).dout = s.dout := by
  cases c with
  | ark r =>
    obtain h | ⟨round, h⟩ := arkImmediateEffect_cases s r <;> simp only [effectOf, h, arkEffect, State.withMatrix_dout]
  | store | enc | dec | enck | deck => simp [writesDout] at h
  | _ => simp [effectOf, loadEffect, sbEffect, srEffect, mcEffect, isbEffect, isrEffect, imcEffect, expandEffect]

theorem effectOf_schedule {c : Instr} (s : State) (h : expandsFirst c = false) :
    (effectOf c s).rk = s.rk ∧ (effectOf c s).rklen = s.rklen ∧ (effectOf c s).rc = s.rc := by
  cases c with
  | ark r => obtain h | ⟨round, h⟩ := arkImmediateEffect_cases s r <;> simp [effectOf, h, arkEffect]
  | expand | enck | deck => simp [expandsFirst] at h
  | _ => simp [effectOf, loadEffect, storeEffect, sbEffect, srEffect, mcEffect, isbEffect, isrEffect, imcEffect,
      encEffect, decEffect]

/-- What command `c` leaves alone, register by register (R39). -/
structure LeavesAlone (c : Instr) (s t : State) : Prop where
  key : t.key = s.key
  keylen : t.keylen = s.keylen
  din : t.din = s.din
  blklen : t.blklen = s.blklen
  matrix : writesMatrix c = false → t.matrix = s.matrix
  dout : writesDout c = false → t.dout = s.dout
  schedule : expandsFirst c = false → t.rk = s.rk ∧ t.rklen = s.rklen ∧ t.rc = s.rc
  script : t.script = s.script
  pacing : t.pacing = s.pacing
  reads : t.reads = s.reads
  resets : t.resets = s.resets

theorem exec_leavesAlone {c : Instr} {s t : State} (h : exec c s = .next t) : LeavesAlone c s t := by
  obtain ⟨-, ⟨e, -, rfl⟩ | ⟨-, rfl⟩⟩ := exec_next h
  · rw [raiseError_eq]
    constructor <;> simp
  · rw [completeCommand_eq]
    exact {
      key := effectOf_key s c
      keylen := effectOf_keylen s c
      din := effectOf_din s c
      blklen := effectOf_blklen s c
      matrix := effectOf_matrix s
      dout := effectOf_dout s
      schedule := effectOf_schedule s
      script := effectOf_script s c
      pacing := effectOf_pacing s c
      reads := effectOf_reads s c
      resets := effectOf_resets s c }

/-- The same, byte by byte of the register space: beside STATUS, only DOUT, RKLEN and RK can change, where `c` writes
them. -/
theorem LeavesAlone.readByte_eq {c : Instr} {s t : State} {a : Byte} (h : LeavesAlone c s t) (hstatus : a ≠ 0x31)
    (hdout : writesDout c = true → ¬ (0x20 ≤ a.toNat ∧ a.toNat < 0x30))
    (hschedule : expandsFirst c = true → a ≠ 0x34 ∧ ¬ (0x40 ≤ a.toNat ∧ a.toNat < 0xF0)) :
    readByte t a = readByte s a := by
  unfold readByte
  cases hl : locate a with
  | key n => simp only [readLocation, h.key]
  | din n => simp only [readLocation, h.din]
  | dout n =>
    have hkept := h.dout (Bool.eq_false_iff.mpr fun hw => hdout hw (toNat_of_locate_dout hl))
    simp only [readLocation, hkept]
  | status => exact absurd ((locate_eq_status_iff a).mp hl) hstatus
  | keylen => exact h.keylen
  | blklen => exact h.blklen
  | rklen =>
    obtain ⟨-, hkept, -⟩ := h.schedule (Bool.eq_false_iff.mpr fun hw => (hschedule hw).1 ((locate_eq_iff rfl).mp hl))
    exact hkept
  | rk i k =>
    obtain ⟨hkept, -⟩ := h.schedule (Bool.eq_false_iff.mpr fun hw => (hschedule hw).2 (toNat_of_locate_rk hl))
    simp only [readLocation, hkept]
  | cmd | reserved => rfl

/-! What an accepted command computes (R39, the R entries). -/

/-- A command that ends with STATUS 0x02 was accepted (R223). -/
theorem exec_completed {c : Instr} {s t : State} (h : exec c s = .next t) (hstatus : t.status = 0x02) :
    t = completeCommand (effectOf c s) := by
  obtain ⟨-, ⟨e, -, rfl⟩ | ⟨-, rfl⟩⟩ := exec_next h
  · exact absurd hstatus (errorStatus_ne_completed e)
  · rfl

theorem roundIndex_ofNat (r : Fin 11) : roundIndex (BitVec.ofNat 4 r.val) = some r := by
  revert r
  decide

/-- R170: a round key is its four words. -/
theorem addRoundKey_congr (S : StateMatrix) {V W : Schedule} {r : Fin 11}
    (h : ∀ k : Fin 4, V[4 * r.val + k.val] = W[4 * r.val + k.val]) : addRoundKey S V r = addRoundKey S W r := by
  simp only [addRoundKey, roundKeyWord, h]

/-! The input registers (R21, R22, R26, R27). -/

/-- The four registers that only the host gives values to. -/
def SameInputs (s t : State) : Prop := t.key = s.key ∧ t.din = s.din ∧ t.keylen = s.keylen ∧ t.blklen = s.blklen

/-- A turn other than an rst leaves the input registers alone, or is a host write to a register while BUSY is 0. -/
theorem Turn.sameInputs_or_write {s t : State} (h : Turn s t)
    (hrst : ¬ ∃ rest, s.mover = .host ∧ s.script = .rst :: rest) :
    SameInputs s t ∨
      (s.busy = false ∧ ∃ a v rest, s.script = .wr a v :: rest ∧ t = writeByte (s.withScript rest) a v) := by
  cases h with
  | reset rest hm hs => exact absurd ⟨rest, hm, hs⟩ hrst
  | write a v rest hb hs => exact .inr ⟨hb, a, v, rest, hs, rfl⟩
  | observe | reject | accept => exact .inl ⟨rfl, rfl, rfl, rfl⟩
  | execute => simp [SameInputs, completeCommand]
  | advance => simp [SameInputs]
  | complete => simp [SameInputs, completeCommand]

/-- A host write changes an input register only at that register's addresses (R51, R54). -/
theorem address_of_writeByte_key_ne {s : State} {a v : Byte} (h : (writeByte s a v).key ≠ s.key) : a.toNat < 0x10 := by
  unfold writeByte at h
  cases hl : locate a with
  | key n => exact toNat_of_locate_key hl
  | _ => simp [hl, writeLocation] at h

theorem address_of_writeByte_din_ne {s : State} {a v : Byte} (h : (writeByte s a v).din ≠ s.din) :
    0x10 ≤ a.toNat ∧ a.toNat < 0x20 := by
  unfold writeByte at h
  cases hl : locate a with
  | din n => exact toNat_of_locate_din hl
  | _ => simp [hl, writeLocation] at h

theorem address_of_writeByte_keylen_ne {s : State} {a v : Byte} (h : (writeByte s a v).keylen ≠ s.keylen) : a = 0x32 := by
  unfold writeByte at h
  cases hl : locate a with
  | keylen => exact (locate_eq_iff rfl).mp hl
  | _ => simp [hl, writeLocation] at h

theorem address_of_writeByte_blklen_ne {s : State} {a v : Byte} (h : (writeByte s a v).blklen ≠ s.blklen) : a = 0x33 := by
  unfold writeByte at h
  cases hl : locate a with
  | blklen => exact (locate_eq_iff rfl).mp hl
  | _ => simp [hl, writeLocation] at h

/-! Commands right after reset (R41). -/

theorem exec_rejected {c : Instr} {s : State} {e : CommandError} (hb : s.busy = false) (hr : rejection c s = some e) :
    exec c s = .next { s with status := errorStatus e } :=
  (exec_eq_runCommand c s).trans (runCommand_rejected _ hb hr)

/-- After reset a command that checks a length is rejected with the error of the first it checks. -/
theorem exec_afterReset {c : Instr} {x : LengthCheck} (data : DataRegisters) (count : Nat)
    (hc : c.wellFormed = true ∧ (lengthChecks c).head? = some x) :
    exec c (State.afterReset data count) = .next { State.afterReset data count with status := errorStatus x.error } := by
  obtain ⟨hwf, hhead⟩ := hc
  obtain ⟨xs, hxs⟩ := List.head?_eq_some_iff.mp hhead
  have hfails : x.passes (State.afterReset data count) = false := by cases x <;> rfl
  have hr : rejection c (State.afterReset data count) = some x.error := by simp [rejection_wellFormed _ hwf, hxs, hfails]
  exact exec_rejected (afterReset_busy data count) hr

end Sys2Proof.Machine

namespace Sys2Proof.Proofs

open Sys2Proof Sys2Proof.Machine Sys2Proof.Claims

/-- Settles O11, value by value of the seven. -/
theorem statusFieldsConsistent : Obligations.StatusFieldsConsistent := by
  unfold Obligations.StatusFieldsConsistent
  exact ⟨by decide, by decide⟩

/-- Settles O43: the core after reset is idle with STATUS 0x00, and no expansion runs. -/
theorem resetStateIsGood : Obligations.ResetStateIsGood := by
  unfold Obligations.ResetStateIsGood
  intro data count
  exact ⟨.of_idle resetStatus_legal busyFlag_reset rfl, expansionInv_of_idle rfl⟩

/-- Settles O44, by cases on the turn taken: the lengths of a running command hold, since no micro-operation makes a right
length wrong. -/
theorem stepKeepsInvariant : Obligations.StepKeepsInvariant := by
  unfold Obligations.StepKeepsInvariant
  exact fun s t hinv hstep => (step_next hstep).keeps_inv hinv

/-- Settles O45, by cases on the turn taken: only a micro-step that is not the last leads to a state in which the invariant
says anything, and there it is the recurrence of R144. -/
theorem stepKeepsExpansionInvariant : Obligations.StepKeepsExpansionInvariant := by
  unfold Obligations.StepKeepsExpansionInvariant
  exact fun s t hinv hexp hstep => (step_next hstep).keeps_expansionInv hinv hexp

/-- Settles O49: `Location.address` is the inverse of `locate` off the reserved addresses. -/
theorem addressMapHasNoAliasing : Obligations.AddressMapHasNoAliasing := by
  unfold Obligations.AddressMapHasNoAliasing
  refine ⟨fun a b ha h => locate_injective ha h, fun l hl => ?_, by decide +kernel⟩
  obtain ⟨a, ha⟩ := address_isSome hl
  exact ⟨a, ha, locate_address ha⟩

/-- Settles O56: the three lengths are 0 after reset, so that the first check of each command fails. -/
theorem resetValues : Obligations.ResetValues := by
  unfold Obligations.ResetValues
  rintro data count s rfl
  have hkey : ∀ c ∈ [Instr.expand, .enck, .deck], c.wellFormed = true ∧ (lengthChecks c).head? = some .keyLength := by
    decide
  have hblock : ∀ c ∈ [Instr.load, .enc, .dec], c.wellFormed = true ∧ (lengthChecks c).head? = some .blockLength := by
    decide
  have hark {r : BitVec 4} (hr : r.toNat ≤ 10) : (Instr.ark r).wellFormed = true := by
    simpa [Instr.wellFormed, BitVec.le_def] using hr
  exact ⟨rfl, rfl, rfl, rfl, rfl, fun c hc => exec_afterReset data count (hkey c hc),
    fun c hc => exec_afterReset data count (hblock c hc), fun r hr => exec_afterReset data count ⟨hark hr, rfl⟩⟩

/-- Settles O58: rejection writes STATUS alone, and acceptance adds the command's data effect. -/
theorem accessMatrixWrites : Obligations.AccessMatrixWrites := by
  unfold Obligations.AccessMatrixWrites
  intro c s t hexec
  have h := exec_leavesAlone hexec
  exact ⟨h.key, h.keylen, h.din, h.blklen, h.matrix, h.dout, h.schedule, h.script, h.pacing, h.reads, h.resets,
    fun a hstatus hdout hschedule => h.readByte_eq hstatus hdout hschedule⟩

/-- Settles O59: a command that completed was accepted, and the data it wrote is a function of the operands named. -/
theorem resultsDependOnOperandsOnly : Obligations.ResultsDependOnOperandsOnly := by
  unfold Obligations.ResultsDependOnOperandsOnly
  intro c s s' t t' hexec hexec' hstatus hstatus'
  rw [exec_completed hexec hstatus, exec_completed hexec' hstatus']
  simp only [completeCommand_eq]
  refine ⟨?_, ?_, ?_, ?_, ?_, ?_, ?_⟩
  · rintro rfl hdin
    simp [effectOf, loadEffect, hdin]
  · rintro rfl hmatrix
    simp [effectOf, storeEffect, hmatrix]
  · rintro r rfl hmatrix hkey
    simp [effectOf, arkImmediateEffect, roundIndex_ofNat, arkEffect, hmatrix, addRoundKey_congr _ hkey]
  · intro hc hmatrix
    simp only [List.mem_cons, List.not_mem_nil, or_false] at hc
    obtain rfl | rfl | rfl | rfl | rfl | rfl := hc <;>
      simp [effectOf, sbEffect, srEffect, mcEffect, isbEffect, isrEffect, imcEffect, hmatrix]
  · rintro rfl hkey
    simp [effectOf, expandEffect_eq, hkey]
  · rintro (rfl | rfl) hdin hrk
    · simp [effectOf, encEffect_eq, hdin, hrk]
    · simp [effectOf, decEffect_eq, hdin, hrk]
  · rintro (rfl | rfl) hkey hdin
    · simp [effectOf, enckEffect_eq, hkey, hdin]
    · simp [effectOf, deckEffect_eq, hkey, hdin]

/-- Settles O60: a turn other than an rst leaves the input registers alone, unless it is a host write, which
reaches one byte. -/
theorem inputsChangeByHostOnly : Obligations.InputsChangeByHostOnly := by
  unfold Obligations.InputsChangeByHostOnly
  intro s t hstep hrst
  obtain ⟨hkey, hdin, hkeylen, hblklen⟩ | ⟨hb, a, v, rest, hs, rfl⟩ := (step_next hstep).sameInputs_or_write hrst
  · simp [hkey, hdin, hkeylen, hblklen]
  · refine ⟨fun h => ⟨hb, a, v, rest, hs, address_of_writeByte_key_ne h⟩,
      fun h => ⟨hb, a, v, rest, hs, address_of_writeByte_din_ne h⟩,
      fun h => ⟨hb, v, rest, ?_⟩, fun h => ⟨hb, v, rest, ?_⟩⟩
    · rw [hs, address_of_writeByte_keylen_ne h]
    · rw [hs, address_of_writeByte_blklen_ne h]

end Sys2Proof.Proofs
end

section
/-!
PROOFS. The memory map and its accesses (20_memory.md): the column-major layout and its round trips (R57), what a host read
returns and a host write changes at every address (R51, R53, R54), and that a host that only polls STATUS finds the state
of the command's one atomic step (R64), since the command's micro-operations in a row are its whole effect
(44_cipher_sequencer.md R242, R247).
-/

namespace Sys2Proof.Machine

open Sys2Proof Sys2Proof.Claims

/-! The column-major layout (R57). -/

theorem fromState_toState (b : Block) : fromState (toState b) = b := by
  apply Block.ext_bytes
  intro n
  simp [Nat.mod_add_div]

theorem toState_fromState (S : StateMatrix) : toState (fromState S) = S := by
  apply StateMatrix.ext_entries
  intro r c
  have hrow : (r.val + 4 * c.val) % 4 = r.val := by omega
  have hcol : (r.val + 4 * c.val) / 4 = c.val := by omega
  simp [hrow, hcol]

/-! Host reads (R51, R53, R55, R56). -/

/-- A read of a register byte, by the address that stands for it. -/
theorem readByte_address (s : State) {l : Location} {a : Byte} (h : l.address = some a) : readByte s a = readLocation s l :=
  congrArg (readLocation s) (locate_address h)

theorem locate_reserved {a : Byte} (h : (0x35 ≤ a.toNat ∧ a.toNat ≤ 0x3F) ∨ 0xF0 ≤ a.toNat) :
    locate a = .reserved := by
  unfold locate
  split_ifs
  any_goals omega
  rfl

@[simp] theorem readByte_withScript (s : State) (ops : List HostOp) (a : Byte) :
    readByte (s.withScript ops) a = readByte s a := rfl

/-- The host's turn with an operation left in the script. -/
theorem step_host {s : State} {op : HostOp} {rest : List HostOp} (hm : s.mover = .host) (hs : s.script = op :: rest) :
    step s = hostOp op (s.useTurn.withScript rest) := by
  simp [step, agentStep, hm, hostTurn, hs]

theorem step_read_idle {s : State} {a : Byte} {rest : List HostOp} (hb : s.busy = false) (hs : s.script = .rd a :: rest) :
    step s = .next { s with script := rest, reads := s.reads ++ [readByte s a] } :=
  (step_idle hb hs).trans (hostRead_idle a hb)

/-- R305: while BUSY is 1 a read of STATUS is answered and uses up one turn of the pacing. -/
theorem step_read_status_busy {s : State} {rest : List HostOp} (hb : s.busy = true) (hm : s.mover = .host)
    (hs : s.script = .rd 0x31 :: rest) :
    step s = .next { s with script := rest, reads := s.reads ++ [s.status], pacing := s.pacing.afterTurn } := by
  rw [step_host hm hs, useTurn_busy_eq hb]
  exact hostRead_status _

theorem step_read_busy {s : State} {a : Byte} {rest : List HostOp} (hb : s.busy = true) (hm : s.mover = .host)
    (hs : s.script = .rd a :: rest) (ha : a ≠ 0x31) : step s = .refused (.hostAccessWhileBusy a) := by
  rw [step_host hm hs]
  exact hostRead_busy ((useTurn_busy s).trans hb) (mt (locate_eq_status_iff a).mp ha)

/-! Host writes (R51, R54, R55, R56). -/

/-- The locations whose byte a host write sets (R54). -/
def Location.writable : Location → Bool
  | .key _ | .din _ | .keylen | .blklen | .rklen | .rk _ _ => true
  | .dout _ | .cmd | .status | .reserved => false

theorem hostWritable_iff (a : Byte) : HostWritable a ↔ (locate a).writable = true := by
  unfold HostWritable locate
  split_ifs <;> simp [Location.writable] <;> omega

theorem writeLocation_not_writable {l : Location} (s : State) (v : Byte) (h : l.writable = false) :
    writeLocation s v l = s := by
  cases l with
  | key n | din n | keylen | blklen | rklen | rk i k => simp [Location.writable] at h
  | dout n | cmd | status | reserved => rfl

theorem readLocation_writeLocation_same {l : Location} (s : State) (v : Byte) (h : l.writable = true) :
    readLocation (writeLocation s v l) l = v := by
  cases l with
  | key n | din n | rk i k => simp [writeLocation, readLocation]
  | keylen | blklen | rklen => rfl
  | dout n | cmd | status | reserved => simp [Location.writable] at h

/-- R40, R54: a write reaches one location. -/
theorem readLocation_writeLocation_ne {l m : Location} (s : State) (v : Byte) (h : m ≠ l) :
    readLocation (writeLocation s v l) m = readLocation s m := by
  cases l with
  | key n =>
    cases m with
    | key p =>
      have hne : n.val ≠ p.val := fun heq => h (congrArg Location.key (Fin.ext heq.symm))
      simp [writeLocation, readLocation, Vector.getElem_set_ne, hne]
    | _ => rfl
  | din n =>
    cases m with
    | din p =>
      have hne : n.val ≠ p.val := fun heq => h (congrArg Location.din (Fin.ext heq.symm))
      simp [writeLocation, readLocation, Vector.getElem_set_ne, hne]
    | _ => rfl
  | rk i k =>
    cases m with
    | rk j q =>
      by_cases hword : i.val = j.val
      · obtain rfl := Fin.ext hword
        have hne : k.val ≠ q.val := fun heq => h (congrArg (Location.rk i) (Fin.ext heq.symm))
        simp [writeLocation, readLocation, Vector.getElem_set_ne, hne]
      · simp [writeLocation, readLocation, Vector.getElem_set_ne, hword]
    | _ => rfl
  | keylen =>
    cases m with
    | keylen => exact absurd rfl h
    | _ => rfl
  | blklen =>
    cases m with
    | blklen => exact absurd rfl h
    | _ => rfl
  | rklen =>
    cases m with
    | rklen => exact absurd rfl h
    | _ => rfl
  | dout n | cmd | status | reserved => rfl

theorem readByte_writeByte_same {a : Byte} (s : State) (v : Byte) (h : HostWritable a) : readByte (writeByte s a v) a = v :=
  readLocation_writeLocation_same s v ((hostWritable_iff a).mp h)

theorem readByte_writeByte_ne {a b : Byte} (s : State) (v : Byte) (h : b ≠ a) :
    readByte (writeByte s a v) b = readByte s b := by
  by_cases hreserved : locate b = .reserved
  · simp [readByte, hreserved, readLocation]
  · exact readLocation_writeLocation_ne s v fun heq => h (locate_injective hreserved heq)

theorem writeByte_not_writable {a : Byte} (s : State) (v : Byte) (h : ¬ HostWritable a) : writeByte s a v = s :=
  writeLocation_not_writable s v (Bool.eq_false_iff.mpr (mt (hostWritable_iff a).mpr h))

/-- A host write reaches KEY, DIN, the length registers and RK only (R54). -/
theorem writeByte_registers (s : State) (a v : Byte) :
    ∃ key din keylen blklen rklen rk,
      writeByte s a v =
        { s with key := key, din := din, keylen := keylen, blklen := blklen, rklen := rklen, rk := rk } := by
  unfold writeByte
  cases locate a <;> exact ⟨_, _, _, _, _, _, rfl⟩

theorem step_write_idle {s : State} {a v : Byte} {rest : List HostOp} (hb : s.busy = false) (ha : a ≠ 0x30)
    (hs : s.script = .wr a v :: rest) : step s = .next (writeByte (s.withScript rest) a v) :=
  (step_idle hb hs).trans (hostWrite_register v hb (mt (locate_eq_iff rfl).mp ha))

/-! The data effect of micro-operations in a row (44_cipher_sequencer.md R240). -/

/-- The data effect of a list of micro-operations, in order. -/
def applyMicroOps (ops : List MicroOp) (s : State) : State := ops.foldl (fun t u => microEffect u t) s

@[simp] theorem applyMicroOps_nil (s : State) : applyMicroOps [] s = s := rfl

@[simp] theorem applyMicroOps_cons (u : MicroOp) (ops : List MicroOp) (s : State) :
    applyMicroOps (u :: ops) s = applyMicroOps ops (microEffect u s) := rfl

theorem applyMicroOps_append (ops ops' : List MicroOp) (s : State) :
    applyMicroOps (ops ++ ops') s = applyMicroOps ops' (applyMicroOps ops s) := List.foldl_append

/-- Completion writes STATUS and SEQ, which no data effect reads or writes. -/
theorem completeCommand_microEffect (u : MicroOp) (s : State) :
    completeCommand (microEffect u s) = microEffect u (completeCommand s) := by
  cases u <;> simp only [completeCommand_eq, microEffect, loadEffect_eq, storeEffect_eq, arkEffect_eq, sbEffect_eq,
    srEffect_eq, mcEffect_eq, isbEffect_eq, isrEffect_eq, imcEffect_eq, kinitEffect, kwEffect_eq, State.withRk, State.withRc]

theorem completeCommand_applyMicroOps (ops : List MicroOp) (s : State) :
    completeCommand (applyMicroOps ops s) = applyMicroOps ops (completeCommand s) := by
  induction ops generalizing s with
  | nil => rfl
  | cons u ops ih => rw [applyMicroOps_cons, ih, completeCommand_microEffect, applyMicroOps_cons]

theorem microSteps_succ_next {n : Nat} {s t : State} (h : microSteps (n + 1) s = .next t) :
    ∃ s', microStep s = .next s' ∧ microSteps n s' = .next t := by
  cases hmicro : microStep s with
  | next s' => exact ⟨s', rfl, (microSteps_succ n hmicro).symm.trans h⟩
  | fault r => simp [microSteps, hmicro] at h
  | refused r => simp [microSteps, hmicro] at h

/-- The sequencer, from an index with micro-operations left, applies those and completes (R241, R223). -/
theorem microSteps_complete {c : Instr} {ops : List MicroOp} {idx : Nat} {s : State} (hseq : s.seq = .running c idx)
    (hops : (microProgram c).drop idx = ops) (hne : ops ≠ []) :
    microSteps ops.length s = .next (completeCommand (applyMicroOps ops s)) := by
  induction ops generalizing idx s with
  | nil => exact absurd rfl hne
  | cons u ops ih =>
    have hu : (microProgram c)[idx]? = some u := by rw [← List.head?_drop, hops]; rfl
    have hrest : (microProgram c).drop (idx + 1) = ops := by rw [← List.drop_drop, hops]; rfl
    have hlen : (microProgram c).length - (idx + 1) = ops.length := by rw [← hrest, List.length_drop]
    have hidx : idx < (microProgram c).length := (List.getElem?_eq_some_iff.mp hu).1
    cases hcase : ops with
    | nil =>
      subst hcase
      exact microSteps_succ 0 (microStep_last hseq hu (by simp at hlen; omega))
    | cons w ws =>
      have hmore : ops ≠ [] := by simp [hcase]
      have hlast : idx + 1 ≠ (microProgram c).length := by
        have := List.length_pos_iff.mpr hmore
        omega
      rw [← hcase, List.length_cons, microSteps_succ _ (microStep_advance hseq hu hlast),
        ih (State.withSeq_seq _ _) hrest hmore, completeCommand_applyMicroOps, applyMicroOps_cons,
        completeCommand_applyMicroOps]
      rfl

/-! The micro-operations of a cipher (R225, R226, R243, R244). -/

theorem applyMicroOps_rounds {program : Fin 11 → List MicroOp}
    {round : Schedule → StateMatrix → Fin 11 → StateMatrix}
    (hround : ∀ r s, applyMicroOps (program r) s = s.withMatrix (round s.rk s.matrix r))
    (rounds : List (Fin 11)) (s : State) :
    applyMicroOps (rounds.flatMap program) s = s.withMatrix (rounds.foldl (round s.rk) s.matrix) := by
  induction rounds generalizing s with
  | nil => rfl
  | cons r rounds ih => rw [List.flatMap_cons, applyMicroOps_append, hround, ih]; rfl

theorem applyMicroOps_encProgram (s : State) : applyMicroOps encProgram s = encEffect s := by
  have hfirst (s : State) : applyMicroOps [.load, .ark 0] s = s.withMatrix (addRoundKey (toState s.din) s.rk 0) := rfl
  have hround (r : Fin 11) (s : State) :
      applyMicroOps (encRoundProgram r) s = s.withMatrix (encryptRound s.rk s.matrix r) := rfl
  have hlast (s : State) :
      applyMicroOps [.sb, .sr, .ark 10, .store] s =
        (s.withDout (fromState (encryptLast s.rk s.matrix))).withMatrix (encryptLast s.rk s.matrix) := rfl
  simp only [encProgram, applyMicroOps_append, hfirst, applyMicroOps_rounds hround, hlast, encEffect, encrypt,
    toState_fromState, State.withMatrix, State.withDout]

theorem applyMicroOps_decProgram (s : State) : applyMicroOps decProgram s = decEffect s := by
  have hfirst (s : State) : applyMicroOps [.load, .ark 10] s = s.withMatrix (addRoundKey (toState s.din) s.rk 10) := rfl
  have hround (r : Fin 11) (s : State) :
      applyMicroOps (decRoundProgram r) s = s.withMatrix (decryptRound s.rk s.matrix r) := rfl
  have hlast (s : State) :
      applyMicroOps [.isr, .isb, .ark 0, .store] s =
        (s.withDout (fromState (decryptLast s.rk s.matrix))).withMatrix (decryptLast s.rk s.matrix) := rfl
  simp only [decProgram, applyMicroOps_append, hfirst, applyMicroOps_rounds hround, hlast, decEffect, decrypt,
    toState_fromState, State.withMatrix, State.withDout]

/-! The micro-operations of an expansion (42_key_schedule.md R150). -/

/-- After `uKINIT` and the first `n` of the words made by `uKW`. -/
theorem applyMicroOps_expandProgram_take (s : State) {n : Nat} (hn : n ≤ 40) :
    ∃ rc W, ExpandedBefore s.key (n + 1) rc W ∧
      applyMicroOps (expandProgram.take (n + 1)) s =
        { s with rk := W, rc := rc, rklen := if n = 40 then Config.scheduleLength else s.rklen } := by
  induction n with
  | zero =>
    refine ⟨_, _, expandedBefore_kinit s.key s.rk, ?_⟩
    simp [List.take_add_one, expandProgram_zero, microEffect, kinitEffect, State.withRk, State.withRc]
  | succ n ih =>
    obtain ⟨rc, W, hexp, hstate⟩ := ih (by omega)
    refine ⟨_, _, expandedBefore_kw (j := ⟨n, by omega⟩) hexp, ?_⟩
    rw [List.take_add_one, expandProgram_succ ⟨n, by omega⟩, applyMicroOps_append, hstate]
    have hn : n ≠ 40 := by omega
    simp [microEffect, kwEffect_eq, hn]

/-- Before micro-step 41 every word is made, and RC has been doubled ten times. -/
theorem expandedBefore_all {key : Block} {rc : Byte} {W : Schedule} (h : ExpandedBefore key 41 rc W) :
    rc = finalRoundConstant ∧ W = expand key := by
  obtain ⟨hrc, hword⟩ := h
  have hlast : rcon (1 + doublingsBefore 41) = finalRoundConstant := by decide
  exact ⟨hrc.trans hlast, Schedule.ext_words fun i => hword i (by omega)⟩

theorem applyMicroOps_expandProgram (s : State) : applyMicroOps expandProgram s = expandEffect s := by
  obtain ⟨rc, W, hexp, hstate⟩ := applyMicroOps_expandProgram_take s (n := 40) le_rfl
  obtain ⟨rfl, rfl⟩ := expandedBefore_all hexp
  rw [List.take_of_length_le length_expandProgram.le] at hstate
  rw [hstate, expandEffect_eq, if_pos rfl]

/-- R247: the micro-operations of a legal command, in a row, are its whole effect. -/
theorem applyMicroOps_microProgram {c : Instr} (s : State) (h : c.wellFormed = true) :
    applyMicroOps (microProgram c) s = effectOf c s := by
  cases c with
  | ark r =>
    obtain ⟨round, hround, -⟩ := roundIndex_eq_some (by simpa [Instr.wellFormed] using h)
    simp [microProgram, arkProgram, hround, effectOf, arkImmediateEffect, microEffect]
  | expand => exact applyMicroOps_expandProgram s
  | enc => exact applyMicroOps_encProgram s
  | dec => exact applyMicroOps_decProgram s
  | enck => rw [microProgram, applyMicroOps_append, applyMicroOps_expandProgram, applyMicroOps_encProgram]; rfl
  | deck => rw [microProgram, applyMicroOps_append, applyMicroOps_expandProgram, applyMicroOps_decProgram]; rfl
  | load | store | sb | sr | mc | isb | isr | imc => rfl

/-- R247: an accepted command, run micro-step by micro-step to completion, ends in the state of its one atomic step. -/
theorem microSteps_acceptCommand {c : Instr} {s : State} (hr : rejection c s = none) :
    microSteps (microProgram c).length (acceptCommand c s) = .next (completeCommand (effectOf c s)) := by
  obtain ⟨hwf, -⟩ := rejection_eq_none_iff.mp hr
  rw [microSteps_complete (s := acceptCommand c s) rfl List.drop_zero
      (List.ne_nil_of_length_pos (microProgram_length_pos hwf)),
    completeCommand_applyMicroOps, ← applyMicroOps_microProgram s hwf, completeCommand_applyMicroOps]
  rfl

/-! Submitting a command (30_encoding.md R85, 44_cipher_sequencer.md R220). -/

theorem decode_encode {c : Instr} (h : c.wellFormed = true) : decode (encode c) = .command c := by
  cases c with
  | ark r => revert r; decide
  | _ => rfl

/-- The write that submits an accepted command under the micro-step pacing (R220). -/
theorem step_accept {c : Instr} {s : State} {turns : List Agent} {rest : List HostOp} (hb : s.busy = false)
    (hp : s.pacing = .stepped turns) (hs : s.script = .wr 0x30 (encode c) :: rest) (hr : rejection c s = none) :
    step s = .next (acceptCommand c (s.withScript rest)) := by
  obtain ⟨hwf, -⟩ := rejection_eq_none_iff.mp hr
  calc step s = submitCommand (encode c) (s.withScript rest) := (step_idle hb hs).trans (hostWrite_cmd _ hb)
    _ = startCommand c (s.withScript rest) := submitCommand_stepped (decode_encode hwf) hp
    _ = .next (acceptCommand c (s.withScript rest)) := startCommand_accepted hb hr

/-! States with the same core: a micro-step does not see the outside world's fields. -/

theorem sameCore_trans {s t u : State} (hst : SameCore s t) (htu : SameCore t u) : SameCore s u := by
  simp_all [SameCore]

theorem busy_eq_of_sameCore {s t : State} (h : SameCore s t) : s.busy = t.busy := by
  obtain ⟨-, -, -, -, -, -, -, -, hstatus, -, -⟩ := h
  exact busy_eq_of_status_eq hstatus

theorem sameCore_withPacing (s : State) (p : Pacing) : SameCore (s.withPacing p) s := by simp [SameCore]

theorem sameCore_withSeq {s t : State} (q : SeqPos) (h : SameCore s t) : SameCore (s.withSeq q) (t.withSeq q) := by
  simp_all [SameCore]

theorem sameCore_completeCommand {s t : State} (h : SameCore s t) : SameCore (completeCommand s) (completeCommand t) := by
  simp_all [SameCore, completeCommand]

theorem sameCore_microEffect {s t : State} (u : MicroOp) (h : SameCore s t) :
    SameCore (microEffect u s) (microEffect u t) := by
  obtain ⟨hkey, hdin, hdout, hmatrix, hrk, hkeylen, hblklen, hrklen, hstatus, hseq, hrc⟩ := h
  cases u <;> simp [SameCore, microEffect, loadEffect, storeEffect, arkEffect, sbEffect, srEffect, mcEffect, isbEffect,
    isrEffect, imcEffect, kinitEffect, kwEffect_eq, *]

theorem microStep_of_sameCore {s t t' : State} (h : SameCore s t) (ht : microStep t = .next t') :
    ∃ s', microStep s = .next s' ∧ SameCore s' t' ∧ s'.script = s.script := by
  obtain ⟨c, idx, u, hrunning, hu, hcase⟩ := microStep_next ht
  have hseq : s.seq = .running c idx := by
    obtain ⟨-, -, -, -, -, -, -, -, -, hseq, -⟩ := h
    exact hseq.trans hrunning
  obtain ⟨hlast, rfl⟩ | ⟨hlast, rfl⟩ := hcase
  · exact ⟨_, microStep_last hseq hu hlast, sameCore_completeCommand (sameCore_microEffect u h), microEffect_script s u⟩
  · exact ⟨_, microStep_advance hseq hu hlast, sameCore_withSeq _ (sameCore_microEffect u h), microEffect_script s u⟩

/-! Runs, however many steps they take. -/

/-- Some number of steps of the machine leads from `s` to `t`. -/
def Reaches : State → State → Prop := Relation.ReflTransGen fun s t => step s = .next t

theorem Reaches.exists_run {s t : State} (h : Reaches s t) : ∃ n, Sys2Proof.core.run n s = .next t := by
  induction h using Relation.ReflTransGen.head_induction_on with
  | refl => exact ⟨0, rfl⟩
  | head hstep _ ih =>
    obtain ⟨n, hrun⟩ := ih
    exact ⟨n + 1, (run_succ n hstep).trans hrun⟩

/-! A host that only polls STATUS (20_memory.md R64). -/

/-- A good state with the core of `t`, whose host has `polls` reads of STATUS to make and nothing else. -/
structure Polling (t : State) (polls : Nat) (s : State) : Prop where
  inv : Inv s
  sameCore : SameCore s t
  script : s.script = List.replicate polls (.rd 0x31)

/-- A read of STATUS on the host's turn, BUSY or not, leaves the core as it is. -/
theorem step_poll {s : State} {rest : List HostOp} (hm : s.mover = .host) (hs : s.script = .rd 0x31 :: rest) :
    ∃ s', step s = .next s' ∧ SameCore s' s ∧ s'.script = rest := by
  obtain ⟨p, hp⟩ := useTurn_eq_withPacing s
  rw [step_host hm hs, hp]
  exact ⟨_, hostRead_status _, by simp [SameCore], rfl⟩

theorem Polling.poll {s t : State} {polls : Nat} (h : Polling t (polls + 1) s) (hm : s.mover = .host) :
    ∃ s', step s = .next s' ∧ Polling t polls s' := by
  obtain ⟨s', hstep, hcore, hscript⟩ := step_poll hm h.script
  exact ⟨s', hstep, (step_next hstep).keeps_inv h.inv, sameCore_trans hcore h.sameCore, hscript⟩

theorem Polling.sequencer {s t t' : State} {polls : Nat} (h : Polling t polls s) (hm : s.mover = .sequencer)
    (ht : microStep t = .next t') : ∃ s', step s = .next s' ∧ Polling t' polls s' := by
  have hcore : SameCore (s.withPacing s.pacing.afterTurn) t := sameCore_trans (sameCore_withPacing s _) h.sameCore
  obtain ⟨s', hmicro, hcore', hscript⟩ := microStep_of_sameCore hcore ht
  have hstep : step s = .next s' := (step_sequencer (busy_of_mover_sequencer hm) hm).trans hmicro
  exact ⟨s', hstep, (step_next hstep).keeps_inv h.inv, hcore', hscript.trans h.script⟩

/-- A state whose core can take a micro-step is BUSY. -/
theorem Polling.busy_of_microStep {s t t' : State} {polls : Nat} (h : Polling t polls s) (ht : microStep t = .next t') :
    s.busy = true := by
  obtain ⟨c, idx, u, hrunning, -⟩ := microStep_next ht
  obtain ⟨-, -, -, -, -, -, -, -, -, hseq, -⟩ := h.sameCore
  by_contra hb
  have hidle := h.inv.seq_of_idle (Bool.eq_false_iff.mpr hb)
  simp [← hseq, hidle] at hrunning

/-- The polls made before the next micro-step change nothing, and the micro-step is then taken. -/
theorem Polling.reaches_microStep {s t t' : State} {polls : Nat} (h : Polling t polls s) (ht : microStep t = .next t') :
    ∃ polls' s', Reaches s s' ∧ Polling t' polls' s' := by
  induction polls generalizing s with
  | zero =>
    obtain ⟨s', hstep, h'⟩ := h.sequencer (mover_script_nil (h.busy_of_microStep ht) h.script) ht
    exact ⟨0, s', .single hstep, h'⟩
  | succ polls ih =>
    cases hm : s.mover with
    | host =>
      obtain ⟨s', hstep, h'⟩ := h.poll hm
      obtain ⟨polls', s'', hreach, h''⟩ := ih h'
      exact ⟨polls', s'', .head hstep hreach, h''⟩
    | sequencer =>
      obtain ⟨s', hstep, h'⟩ := h.sequencer hm ht
      exact ⟨polls + 1, s', .single hstep, h'⟩

theorem Polling.reaches_microSteps {n : Nat} {s t t' : State} {polls : Nat} (h : Polling t polls s)
    (ht : microSteps n t = .next t') : ∃ polls' s', Reaches s s' ∧ Polling t' polls' s' := by
  induction n generalizing s t polls with
  | zero =>
    cases ht
    exact ⟨polls, s, .refl, h⟩
  | succ n ih =>
    obtain ⟨t₁, hmicro, hrest⟩ := microSteps_succ_next ht
    obtain ⟨polls₁, s₁, hreach₁, h₁⟩ := h.reaches_microStep hmicro
    obtain ⟨polls', s', hreach', h'⟩ := ih h₁ hrest
    exact ⟨polls', s', hreach₁.trans hreach', h'⟩

/-- With BUSY 0 the polls that are left are made one after another. -/
theorem Polling.reaches_end {s t : State} {polls : Nat} (h : Polling t polls s) (hb : t.busy = false) :
    ∃ s', Reaches s s' ∧ Polling t 0 s' := by
  induction polls generalizing s with
  | zero => exact ⟨s, .refl, h⟩
  | succ polls ih =>
    obtain ⟨s₁, hstep, h₁⟩ := h.poll (mover_idle ((busy_eq_of_sameCore h.sameCore).trans hb))
    obtain ⟨s', hreach, h'⟩ := ih h₁
    exact ⟨s', .head hstep hreach, h'⟩

end Sys2Proof.Machine

namespace Sys2Proof.Proofs

open Sys2Proof Sys2Proof.Machine Sys2Proof.Claims

/-- Settles O27: the two formulas are the definitions' entries, and the two index maps undo each other. -/
theorem columnMajorRoundTrip : Obligations.ColumnMajorRoundTrip := by
  unfold Obligations.ColumnMajorRoundTrip
  exact ⟨fun b r c => toState_entry b r c r.isLt c.isLt, fun S n => fromState_byte S n n.isLt, fromState_toState,
    toState_fromState⟩

/-- Settles O42: polls leave the core as it is and micro-steps do not see the outside world, so that the run follows the
command's micro-steps, which end in the state of the atomic step; the polls then left are made with BUSY 0. -/
theorem pollingIsInvisible : Obligations.PollingIsInvisible := by
  unfold Obligations.PollingIsInvisible
  intro c s t turns polls _ hb hp hs hr hexec
  obtain rfl : t = completeCommand (effectOf c s) := by
    rw [exec_eq_runCommand, runCommand_accepted _ hb hr] at hexec
    cases hexec
    rfl
  have haccepted : Polling (acceptCommand c s) polls (acceptCommand c (s.withScript (List.replicate polls (.rd 0x31)))) :=
    ⟨inv_acceptCommand hr, by simp [SameCore, acceptCommand], rfl⟩
  obtain ⟨polls', s', hreach, hcompleted⟩ := haccepted.reaches_microSteps (microSteps_acceptCommand hr)
  obtain ⟨u, hreach', hend⟩ := hcompleted.reaches_end busyFlag_completed
  obtain ⟨n, hrun⟩ := Reaches.exists_run (.head (step_accept hb hp hs hr) (hreach.trans hreach'))
  exact ⟨n, u, hrun, hend.script, hend.sameCore⟩

/-- Settles O47: `locate` names what stands at each address, and while BUSY is 1 a read of STATUS alone is answered. -/
theorem hostReads : Obligations.HostReads := by
  unfold Obligations.HostReads
  refine ⟨fun s => ⟨fun n => ⟨?_, ?_, ?_⟩, ?_, ?_, ?_, ?_, ?_, fun i k => ?_, fun a ha => ?_⟩,
    fun s a rest hb hs => step_read_idle hb hs, fun s a rest hstatus hm hs => ?_⟩
  · exact readByte_address s (l := .key n) rfl
  · exact readByte_address s (l := .din n) rfl
  · exact readByte_address s (l := .dout n) rfl
  · exact readByte_address s (l := .cmd) rfl
  · exact readByte_address s (l := .status) rfl
  · exact readByte_address s (l := .keylen) rfl
  · exact readByte_address s (l := .blklen) rfl
  · exact readByte_address s (l := .rklen) rfl
  · exact readByte_address s (l := .rk i k) rfl
  · exact congrArg (readLocation s) (locate_reserved ha)
  · have hb : s.busy = true := by simp [State.busy, hstatus, busyFlag]
    refine ⟨?_, step_read_busy hb hm hs⟩
    rintro rfl
    rw [step_read_status_busy hb hm hs, hstatus]

/-- Settles O48: a write sets the byte at one location, of KEY, DIN, a length register or RK, and no two addresses name
the same one. -/
theorem hostWrites : Obligations.HostWrites := by
  unfold Obligations.HostWrites
  intro s a v rest hb ha hs
  refine ⟨_, step_write_idle hb ha hs, fun b hne => ?_, readByte_writeByte_same _ v, writeByte_not_writable _ v, ?_⟩
  · exact (readByte_writeByte_ne _ v hne).trans (readByte_withScript s rest b)
  · obtain ⟨key, din, keylen, blklen, rklen, rk, hwrite⟩ := writeByte_registers (s.withScript rest) a v
    simp [hwrite]

end Sys2Proof.Proofs
end

section
/-!
PROOFS. The encoding and the host script (30_encoding.md): the decoder and the encoder are inverse to each other and the
illegal bytes are R84's (R80 to R85), and what the pseudo-instructions of R91 do on an idle core, each as a run of the
machine over the operations it expands to.
-/

namespace Sys2Proof.Machine

open Sys2Proof Sys2Proof.Claims

/-! The fields of a command byte, as numbers (R80). -/

theorem toNat_opField (v : Byte) : (opField v).toNat = v.toNat / 16 := by
  simp [opField, Nat.shiftRight_eq_div_pow]
  omega

theorem toNat_immField (v : Byte) : (immField v).toNat = v.toNat % 16 := by simp [immField]

theorem opField_append_immField (v : Byte) : opField v ++ immField v = v := BitVec.extractLsb'_append_extractLsb'

/-! The decoder (R84, R85). -/

/-- A command of R85's table stands at its own opcode, and has no operand. -/
theorem plainCommand_eq_some {op : BitVec 4} {c : Instr} (h : plainCommand op = some c) :
    c.opcode = op ∧ c.immediate = 0#4 ∧ c.wellFormed = true := by
  unfold plainCommand at h
  split at h <;> cases h <;> exact ⟨BitVec.eq_of_toNat_eq (Eq.symm ‹_›), rfl, rfl⟩

/-- The opcodes of R85's table: all but 0x0, 0xF and ARK's. -/
theorem exists_plainCommand_iff (op : BitVec 4) :
    (∃ c, plainCommand op = some c) ↔ op.toNat = 0x1 ∨ op.toNat = 0x2 ∨ 0x4 ≤ op.toNat ∧ op.toNat ≤ 0xE := by
  rw [← Option.isSome_iff_exists]
  revert op
  decide

/-- The two ways a byte is a command: it is ARK's with a legal round, or the table's with immediate 0. -/
theorem decode_eq_command_iff {v : Byte} {c : Instr} :
    decode v = .command c ↔
      (opField v = 0x3#4 ∧ immField v ≤ 10#4 ∧ c = .ark (immField v)) ∨
        (immField v = 0#4 ∧ plainCommand (opField v) = some c) := by
  unfold decode
  by_cases hop : opField v = 0x3#4
  · have hplain : plainCommand 0x3#4 = none := rfl
    by_cases himm : immField v ≤ 10#4
    · simp [hop, himm, hplain, eq_comm]
    · simp [hop, himm, hplain]
  · by_cases himm : immField v = 0#4
    · cases plainCommand (opField v) <;> simp [hop, himm]
    · simp [hop, himm]

theorem encode_decode {v : Byte} {c : Instr} (h : decode v = .command c) : c.wellFormed = true ∧ encode c = v := by
  obtain ⟨hop, himm, rfl⟩ | ⟨himm, hplain⟩ := decode_eq_command_iff.mp h
  · refine ⟨by simpa [Instr.wellFormed] using himm, ?_⟩
    calc encode (.ark (immField v)) = 0x3#4 ++ immField v := rfl
      _ = v := hop ▸ opField_append_immField v
  · obtain ⟨hopcode, himmediate, hwf⟩ := plainCommand_eq_some hplain
    exact ⟨hwf, by rw [encode, hopcode, himmediate, ← himm, opField_append_immField]⟩

theorem illegalByte_iff (v : Byte) : IllegalByte v ↔ ∀ c, decode v ≠ .command c := by
  have hlegal : (∃ c, decode v = .command c) ↔
      (v.toNat / 16 = 0x3 ∧ v.toNat % 16 ≤ 10) ∨
        (v.toNat % 16 = 0 ∧ (v.toNat / 16 = 0x1 ∨ v.toNat / 16 = 0x2 ∨ 0x4 ≤ v.toNat / 16 ∧ v.toNat / 16 ≤ 0xE)) := by
    simp [decode_eq_command_iff, exists_or, exists_plainCommand_iff, BitVec.toNat_inj.symm, BitVec.le_def,
      toNat_opField, toNat_immField]
  rw [← not_exists, hlegal, IllegalByte]
  omega

theorem exists_illegal {v : Byte} (h : IllegalByte v) : ∃ why, decode v = .illegal why := by
  cases hd : decode v with
  | illegal why => exact ⟨why, rfl⟩
  | command c => exact absurd hd ((illegalByte_iff v).mp h c)

/-! Runs of the machine over a list of operations. -/

theorem core_run_add (M : Host.Core) (m n : Nat) {s t : M.State} (h : M.run m s = .next t) :
    M.run (m + n) s = M.run n t := by
  induction m generalizing s with
  | zero =>
    cases h
    rw [Nat.zero_add]
  | succ m ih =>
    cases hstep : M.step s with
    | next s' =>
      rw [core_run_succ M m hstep] at h
      rw [Nat.succ_add, core_run_succ M _ hstep, ih h]
    | fault r | refused r => simp [Host.Core.run, hstep] at h

theorem run_add (m n : Nat) {s t : State} (h : Sys2Proof.core.run m s = .next t) :
    Sys2Proof.core.run (m + n) s = Sys2Proof.core.run n t :=
  core_run_add Sys2Proof.core m n h

/-- Operations made one after another, where `state b` is the machine while the register they work on holds `b`, and the
operation for `i` takes `b` to `upd b i`. -/
theorem run_operations {β ι : Type} {state : β → State} {op : ι → HostOp} {upd : β → ι → β}
    (hstep : ∀ b i rest, step ((state b).withScript (op i :: rest)) = .next ((state (upd b i)).withScript rest))
    (is : List ι) (b : β) (rest : List HostOp) :
    Sys2Proof.core.run is.length ((state b).withScript (is.map op ++ rest)) =
      .next ((state (is.foldl upd b)).withScript rest) := by
  induction is generalizing b with
  | nil => rfl
  | cons i is ih => exact (run_succ is.length (hstep b i _)).trans (ih (upd b i))

theorem eq_withScript {s : State} {ops : List HostOp} (hs : s.script = ops) : s = s.withScript ops := by
  rw [← hs]
  rfl

/-- The shape of LDKEY, LDBLK and LDRK: operations on a register that make it `v`, then one more. -/
theorem run_load {β ι : Type} {state : β → State} {op : ι → HostOp} {upd : β → ι → β} {is : List ι} {b v : β}
    {last : HostOp} {rest : List HostOp} {s t : State}
    (hstep : ∀ b i rest, step ((state b).withScript (op i :: rest)) = .next ((state (upd b i)).withScript rest))
    (hstate : s = state b) (hs : s.script = is.map op ++ [last] ++ rest) (hv : is.foldl upd b = v)
    (hlast : step ((state v).withScript (last :: rest)) = .next t) :
    Sys2Proof.core.run (is.length + 1) s = .next t := by
  rw [List.append_assoc] at hs
  rw [eq_withScript hs, hstate, run_add _ 1 (run_operations hstep is b _), hv]
  exact run_one hlast

/-- Reads made one after another with BUSY 0 (R53). -/
theorem run_reads {ι : Type} {address : ι → Byte} {is : List ι} {rest : List HostOp} {s : State} (hb : s.busy = false)
    (hs : s.script = is.map (fun i => .rd (address i)) ++ rest) :
    Sys2Proof.core.run is.length s =
      .next { s with script := rest, reads := s.reads ++ is.map fun i => readByte s (address i) } := by
  have hrun := run_operations (state := s.withReads) (upd := fun bytes i => bytes ++ [readByte s (address i)])
    (fun _ _ _ => step_read_idle hb rfl) is s.reads rest
  rw [List.foldl_append_eq_append, ← List.flatMap_def, ← List.map_eq_flatMap] at hrun
  exact (congrArg _ (eq_withScript hs)).trans hrun

/-- What is read at `i` after writes of `v` that included one at `i`, where a write reaches its own index alone. -/
theorem read_foldl_write {β ι α : Type} [DecidableEq ι] {write : β → ι → β} {read : β → ι → α} {v : ι → α}
    (hsame : ∀ b i, read (write b i) i = v i) (hne : ∀ b i j, j ≠ i → read (write b i) j = read b j)
    {is : List ι} {j : ι} (hj : j ∈ is) (b : β) : read (is.foldl write b) j = v j := by
  induction is using List.reverseRecOn with
  | nil => simp at hj
  | append_singleton is i ih =>
    rw [List.foldl_concat]
    by_cases hji : j = i
    · subst hji
      exact hsame _ j
    · rw [hne _ i j hji]
      exact ih (by simpa [hji] using hj)

/-! Writes of a register's bytes (R54, R91). -/

/-- A host write with BUSY 0, by the location that its address stands for. -/
theorem step_write_register {s : State} {l : Location} {a v : Byte} {rest : List HostOp} (hb : s.busy = false)
    (hl : l.address = some a) (hcmd : l ≠ .cmd) (hs : s.script = .wr a v :: rest) :
    step s = .next (writeLocation (s.withScript rest) v l) := by
  have hloc : locate a = l := locate_address hl
  have ha : a ≠ 0x30 := by
    rintro rfl
    exact hcmd (hloc.symm.trans locate_cmd)
  rw [step_write_idle hb ha hs, writeByte, hloc]

/-- Byte `n` of a block set to that of `h`. -/
def setBlockByte (h b : Block) (n : Fin 16) : Block := b.set n.val h[n]

theorem foldl_setBlockByte (h b : Block) : (List.finRange 16).foldl (setBlockByte h) b = h :=
  Block.ext_bytes fun n => read_foldl_write (write := setBlockByte h) (read := fun b n => b[n]) (v := fun n => h[n])
    (fun b i => by simp [setBlockByte])
    (fun b i j hne => by simp [setBlockByte, Vector.getElem_set_ne, Fin.val_ne_of_ne hne.symm]) (List.mem_finRange n) b

theorem run_ldkey {s : State} {h : Block} {rest : List HostOp} (hb : s.busy = false)
    (hs : s.script = Script.ldkey h ++ rest) :
    Sys2Proof.core.run 17 s = .next { s with key := h, keylen := 0x10, script := rest } := by
  refine run_load (state := s.withKey) (fun _ n _ => ?_) rfl hs (foldl_setBlockByte h s.key) ?_
  · exact step_write_register (l := .key n) hb rfl nofun rfl
  · exact step_write_register (l := .keylen) hb rfl nofun rfl

theorem run_ldblk {s : State} {h : Block} {rest : List HostOp} (hb : s.busy = false)
    (hs : s.script = Script.ldblk h ++ rest) :
    Sys2Proof.core.run 17 s = .next { s with din := h, blklen := 0x10, script := rest } := by
  refine run_load (state := s.withDin) (fun _ n _ => ?_) rfl hs (foldl_setBlockByte h s.din) ?_
  · exact step_write_register (l := .din n) hb rfl nofun rfl
  · exact step_write_register (l := .blklen) hb rfl nofun rfl

/-! The schedule's bytes (20_memory.md R58): byte `m` is byte `m mod 4` of word `m div 4`. -/

def scheduleWord (m : Fin 176) : Fin 44 := ⟨m.val / 4, by omega⟩
def scheduleByte (m : Fin 176) : Fin 4 := ⟨m.val % 4, Nat.mod_lt _ (by decide)⟩

theorem rk_address (m : Fin 176) :
    (Location.rk (scheduleWord m) (scheduleByte m)).address = some (BitVec.ofNat 8 (0x40 + m.val)) := by
  simp [Location.address, scheduleWord, scheduleByte, Nat.add_assoc, Nat.div_add_mod]

theorem scheduleIndex_injective {m n : Fin 176} (hword : scheduleWord m = scheduleWord n)
    (hbyte : scheduleByte m = scheduleByte n) : m = n := by
  simp only [scheduleWord, scheduleByte, Fin.mk.injEq] at hword hbyte
  omega

/-- Byte `m` of a schedule set to that of `h`. -/
def setScheduleByte (h : Vector Byte 176) (W : Schedule) (m : Fin 176) : Schedule :=
  W.set (scheduleWord m).val ((W[scheduleWord m]).set (scheduleByte m).val h[m])

theorem setScheduleByte_same (h : Vector Byte 176) (W : Schedule) (m : Fin 176) :
    ((setScheduleByte h W m)[scheduleWord m])[scheduleByte m] = h[m] := by
  simp [setScheduleByte]

theorem setScheduleByte_ne (h : Vector Byte 176) (W : Schedule) {m n : Fin 176} (hne : n ≠ m) :
    ((setScheduleByte h W m)[scheduleWord n])[scheduleByte n] = (W[scheduleWord n])[scheduleByte n] := by
  by_cases hword : scheduleWord m = scheduleWord n
  · have hbyte : (scheduleByte m).val ≠ (scheduleByte n).val :=
      fun heq => hne (scheduleIndex_injective hword (Fin.ext heq)).symm
    simp [setScheduleByte, hword, Vector.getElem_set_ne, hbyte]
  · simp [setScheduleByte, Vector.getElem_set_ne, Fin.val_ne_of_ne hword]

theorem foldl_setScheduleByte (h : Vector Byte 176) (W : Schedule) (i : Fin 44) (k : Fin 4) :
    (((List.finRange 176).foldl (setScheduleByte h) W)[i])[k] = h[4 * i.val + k.val] := by
  have hread := read_foldl_write (write := setScheduleByte h)
    (read := fun W m => (W[scheduleWord m])[scheduleByte m]) (v := fun m => h[m]) (setScheduleByte_same h)
    (fun W m n => setScheduleByte_ne h W) (List.mem_finRange ⟨4 * i.val + k.val, by omega⟩) W
  have hword : scheduleWord ⟨4 * i.val + k.val, by omega⟩ = i := Fin.ext (by simp only [scheduleWord]; omega)
  have hbyte : scheduleByte ⟨4 * i.val + k.val, by omega⟩ = k := Fin.ext (by simp only [scheduleByte]; omega)
  simp only [hword, hbyte] at hread
  exact hread

theorem run_ldrk {s : State} {h : Vector Byte 176} {W : Schedule} {rest : List HostOp} (hb : s.busy = false)
    (hs : s.script = Script.ldrk h ++ rest) (hW : (List.finRange 176).foldl (setScheduleByte h) s.rk = W) :
    Sys2Proof.core.run 177 s = .next { s with rk := W, rklen := 0x2C, script := rest } := by
  refine run_load (state := s.withRk) (fun _ m _ => ?_) rfl hs hW ?_
  · exact step_write_register (l := .rk (scheduleWord m) (scheduleByte m)) hb (rk_address m) nofun rfl
  · exact step_write_register (l := .rklen) hb rfl nofun rfl

theorem run_rdrk {s : State} {rest : List HostOp} (hb : s.busy = false) (hs : s.script = Script.rdrk ++ rest) :
    Sys2Proof.core.run 176 s = .next { s with
      script := rest
      reads := s.reads ++ (List.finRange 176).map fun m => (s.rk[scheduleWord m])[scheduleByte m] } := by
  have hbyte (m : Fin 176) :
      readByte s (BitVec.ofNat 8 (0x40 + m.val)) = (s.rk[scheduleWord m])[scheduleByte m] :=
    readByte_address s (rk_address m)
  simpa only [hbyte, List.length_finRange] using run_reads hb hs

theorem run_rdout {s : State} {rest : List HostOp} (hb : s.busy = false) (hs : s.script = Script.rdout ++ rest) :
    Sys2Proof.core.run 16 s = .next { s with script := rest, reads := s.reads ++ s.dout.toList } := by
  have hbyte (n : Fin 16) : readByte s (BitVec.ofNat 8 (0x20 + n.val)) = s.dout[n] :=
    readByte_address s (l := .dout n) rfl
  have hbytes : s.dout.toList = (List.finRange 16).map fun n => s.dout[n] := by
    rw [← List.ofFn_eq_map, ← Vector.toList_ofFn]
    exact congrArg Vector.toList Vector.ofFn_getElem.symm
  rw [hbytes]
  simpa only [hbyte, List.length_finRange] using run_reads hb hs

/-! Commands and polls (R91). -/

theorem hostWait_idle {s : State} (h : s.busy = false) : hostWait s = .next (s.withReads (s.reads ++ [s.status])) := by
  simp [hostWait, h]

theorem hostWait_busy {s : State} (h : s.busy = true) : hostWait s = .next (s.withScript (.wait :: s.script)) := by
  simp [hostWait, h]

theorem step_wait_idle {s : State} {rest : List HostOp} (hb : s.busy = false) (hs : s.script = .wait :: rest) :
    step s = .next { s with script := rest, reads := s.reads ++ [s.status] } :=
  (step_idle hb hs).trans (hostWait_idle hb)

theorem step_wait_busy {s : State} {rest : List HostOp} (hb : s.busy = true) (hm : s.mover = .host)
    (hs : s.script = .wait :: rest) : step s = .next { s with pacing := s.pacing.afterTurn } := by
  calc step s = hostWait ((s.withPacing s.pacing.afterTurn).withScript rest) := by
        rw [step_host hm hs, useTurn_busy_eq hb, hostOp]
    _ = .next ((s.withPacing s.pacing.afterTurn).withScript (.wait :: rest)) := hostWait_busy hb
    _ = .next { s with pacing := s.pacing.afterTurn } := by rw [← hs]; rfl

/-- A command that runs whole leaves BUSY 0, accepted or not. -/
theorem exec_next_idle {c : Instr} {s t : State} (h : exec c s = .next t) : t.busy = false := by
  obtain ⟨-, ⟨e, -, rfl⟩ | ⟨-, rfl⟩⟩ := exec_next h
  · exact busyFlag_error e
  · exact busyFlag_completed

/-- RUN under the whole pacing: the command's step and one poll. -/
theorem run_commandThenWait {c : Instr} {s t : State} {rest : List HostOp} (hwf : c.wellFormed = true)
    (hb : s.busy = false) (hp : s.pacing = .whole) (hs : s.script = Script.run c ++ rest)
    (hexec : exec c (s.withScript (.wait :: rest)) = .next t) :
    Sys2Proof.core.run 2 s = .next { t with script := rest, reads := t.reads ++ [t.status] } := by
  have hcmd : step s = .next t :=
    calc step s = submitCommand (encode c) (s.withScript (.wait :: rest)) := (step_idle hb hs).trans (hostWrite_cmd _ hb)
      _ = exec c (s.withScript (.wait :: rest)) := submitCommand_whole (decode_encode hwf) hp
      _ = .next t := hexec
  exact (run_succ 1 hcmd).trans (run_one (step_wait_idle (exec_next_idle hexec) (exec_leavesAlone hexec).script))

/-! `ENCRYPT` and `DECRYPT` (R91, R92). -/

/-- A core whose operands are those that LDKEY and LDBLK load. -/
def State.withOperands (s : State) (k p : Block) : State := { s with key := k, keylen := 0x10, din := p, blklen := 0x10 }

/-- A command that checks KEYLEN and BLKLEN alone is accepted once its operands are loaded. -/
theorem exec_withOperands {c : Instr} {s : State} (k p : Block) (hwf : c.wellFormed = true)
    (hchecks : lengthChecks c = [.keyLength, .blockLength]) (hb : s.busy = false) :
    exec c (s.withOperands k p) = .next (completeCommand (effectOf c (s.withOperands k p))) := by
  rw [exec_eq_runCommand]
  exact runCommand_accepted _ hb (by simp [rejection_wellFormed _ hwf, hchecks, State.withOperands, Config.keyLength,
    Config.blockLength])

/-- The script of `ENCRYPT` and of `DECRYPT`, by its command. -/
theorem run_cipherScript {c : Instr} {s t : State} {k p : Block} {rest : List HostOp} (hwf : c.wellFormed = true)
    (hchecks : lengthChecks c = [.keyLength, .blockLength]) (hb : s.busy = false) (hp : s.pacing = .whole)
    (hs : s.script = Script.ldkey k ++ Script.ldblk p ++ Script.run c ++ Script.rdout ++ rest)
    (ht : effectOf c ((s.withScript (.wait :: (Script.rdout ++ rest))).withOperands k p) = t) :
    Sys2Proof.core.run 52 s =
      .next { completeCommand t with script := rest, reads := s.reads ++ 0x02 :: t.dout.toList } := by
  simp only [List.append_assoc] at hs
  have hexec := exec_withOperands (s := s.withScript (.wait :: (Script.rdout ++ rest))) k p hwf hchecks hb
  rw [ht] at hexec
  have hreads : t.reads = s.reads := ht ▸ effectOf_reads _ c
  calc Sys2Proof.core.run 52 s = Sys2Proof.core.run 35 _ := run_add 17 35 (run_ldkey hb hs)
    _ = Sys2Proof.core.run 18 _ := run_add 17 18 (run_ldblk hb rfl)
    _ = Sys2Proof.core.run 16 _ := run_add 2 16 (run_commandThenWait hwf hb hp rfl hexec)
    _ = .next _ := run_rdout busyFlag_completed rfl
    _ = _ := by simp [completeCommand_eq, hreads, completedStatus]

end Sys2Proof.Machine

namespace Sys2Proof.Proofs

open Sys2Proof Sys2Proof.Machine Sys2Proof.Claims

/-- Settles O1: a byte is its two fields, and `decode_eq_command_iff` says which pairs of fields are a command's. -/
theorem decodeAndEncodeAgree : Obligations.DecodeAndEncodeAgree := by
  unfold Obligations.DecodeAndEncodeAgree
  have hark : ∀ r : BitVec 4, encode (.ark r) = 0x30#8 ||| r.zeroExtend 8 := by decide
  refine ⟨fun r hr => ?_, fun c _ => ?_, fun c hwf => decode_encode hwf, fun v c h => encode_decode h, illegalByte_iff⟩
  · rw [← hark]
    exact decode_encode (by simpa [Instr.wellFormed, BitVec.le_def] using hr)
  · cases c with
    | ark r => exact hark r
    | _ => rfl

/-- Settles O5: a byte with no command in the decoder is answered by error entry, before any length is checked. -/
theorem illegalByteRejected : Obligations.IllegalByteRejected := by
  unfold Obligations.IllegalByteRejected
  refine ⟨fun v hv => by simpa [illegalByte_iff] using hv, fun s v rest hv hb hs => ?_⟩
  obtain ⟨why, hd⟩ := exists_illegal hv
  exact ((step_idle hb hs).trans (hostWrite_cmd v hb)).trans (submitCommand_illegal hd)

/-- Settles O52: the 16 writes set the register byte by byte, and the 17th sets its length. -/
theorem loadPseudoInstructions : Obligations.LoadPseudoInstructions := by
  unfold Obligations.LoadPseudoInstructions
  exact fun s h rest hb => ⟨run_ldkey hb, run_ldblk hb⟩

/-- Settles O53: a poll reads STATUS at once or stays the next operation, and a command that runs whole leaves BUSY 0 for
the poll after it. -/
theorem waitAndRun : Obligations.WaitAndRun := by
  unfold Obligations.WaitAndRun
  exact ⟨fun s rest hm hs => ⟨fun hb => step_wait_idle hb hs, fun hb => step_wait_busy hb hm hs⟩,
    fun s t c rest hwf hb hp hs hexec => run_commandThenWait hwf hb hp hs hexec⟩

/-- Settles O54: byte `m` of the schedule stands at address 0x40 + m, and no two of the 176 are the same byte. -/
theorem schedulePseudoInstructions : Obligations.SchedulePseudoInstructions := by
  unfold Obligations.SchedulePseudoInstructions
  exact fun s rest hb =>
    ⟨fun h hs => ⟨_, foldl_setScheduleByte h s.rk, run_ldrk hb hs rfl⟩, run_rdrk hb, run_rdout hb⟩

/-- Settles O55: the two loads make the checks of ENCK and DECK pass, so that the command is accepted, and RDOUT reads the
block it leaves in DOUT. -/
theorem encryptAndDecryptScripts : Obligations.EncryptAndDecryptScripts := by
  unfold Obligations.EncryptAndDecryptScripts
  exact fun s k p rest hb hp => ⟨
    fun hs => ⟨_, run_cipherScript rfl rfl hb hp hs (enckEffect_eq _), rfl, rfl, rfl, rfl⟩,
    fun hs => ⟨_, run_cipherScript rfl rfl hb hp hs (deckEffect_eq _), rfl, rfl, rfl, rfl⟩⟩

/-- Settles O2: the words are the encodings of the commands; the count runs the decoder over the 256 bytes. -/
theorem opcodeMapWords : Obligations.OpcodeMapWords := by
  unfold Obligations.OpcodeMapWords
  have hword (c : Instr) (hwf : c.wellFormed = true) : decode (encode c) = .command c := decode_encode hwf
  exact ⟨hword .load rfl, hword .store rfl, by decide, hword .sb rfl, hword .sr rfl, hword .mc rfl, hword .isb rfl,
    hword .isr rfl, hword .imc rfl, hword .expand rfl, hword .enc rfl, hword .dec rfl, hword .enck rfl, hword .deck rfl,
    by decide +kernel⟩

end Sys2Proof.Proofs
end

section
/-!
PROOFS. Arithmetic in GF(2^8) (40_gf256.md): `multiply` is linear in its left operand and commutes with doubling it (R102,
R103). Every byte is built from 0 by doubling and adding 1, so these two facts and `1 • b = b` determine the product, and
the laws of R104 and the products of R105 follow from them.
-/

namespace Sys2Proof.Machine

open Sys2Proof

/-! Doubling (R102), and the induction it gives on bytes (R100). -/

theorem doubleInField_xor (a b : Byte) : doubleInField (a ^^^ b) = doubleInField a ^^^ doubleInField b := by
  have hshift : (a ^^^ b) <<< 1 = a <<< 1 ^^^ b <<< 1 := BitVec.shiftLeft_xor_distrib ..
  simp only [doubleInField, hshift, BitVec.getLsbD_xor]
  cases a.getLsbD 7 <;> cases b.getLsbD 7
  · rfl
  · exact BitVec.xor_assoc ..
  · show a <<< 1 ^^^ b <<< 1 ^^^ 0x1B#8 = (a <<< 1 ^^^ 0x1B#8) ^^^ b <<< 1
    ac_rfl
  · show a <<< 1 ^^^ b <<< 1 = (a <<< 1 ^^^ 0x1B#8) ^^^ (b <<< 1 ^^^ 0x1B#8)
    rw [BitVec.xor_comm (b <<< 1), ← BitVec.xor_assoc, BitVec.xor_assoc (a <<< 1), BitVec.xor_self, BitVec.xor_zero]

@[simp] theorem doubleInField_zero : doubleInField 0#8 = 0#8 := rfl

/-- Horner's rule: a byte is its upper seven bits doubled, plus its bit 0. -/
theorem eq_doubleInField_shiftRight (b : Byte) :
    b = doubleInField (b >>> 1) ∨ b = doubleInField (b >>> 1) ^^^ 1#8 := by
  revert b
  decide

/-- Every byte is built from 0 by doubling and adding 1 (R100: a polynomial in `x` with coefficients 0 and 1). -/
theorem byte_induction {P : Byte → Prop} (zero : P 0#8) (double : ∀ b, P b → P (doubleInField b))
    (addOne : ∀ b, P b → P (b ^^^ 1#8)) (b : Byte) : P b := by
  induction h : b.toNat using Nat.strong_induction_on generalizing b with
  | _ n ih =>
    by_cases hb : b = 0#8
    · exact hb ▸ zero
    have hlt : (b >>> 1).toNat < n := by
      have hpos : 0 < b.toNat := by bv_omega
      rw [BitVec.toNat_ushiftRight, Nat.shiftRight_eq_div_pow]
      omega
    have hupper : P (doubleInField (b >>> 1)) := double _ (ih _ hlt _ rfl)
    obtain hbit | hbit := eq_doubleInField_shiftRight b
    · exact hbit ▸ hupper
    · exact hbit ▸ addOne _ hupper

/-! The product as a function of its left operand (R103). -/

/-- The sum of two states of R103's loop: the accumulators' and the `t`s'. -/
def xorPair (p q : Byte × Byte) : Byte × Byte := (p.1 ^^^ q.1, p.2 ^^^ q.2)

theorem multiplyStep_xorPair (b : Byte) (p q : Byte × Byte) (k : Nat) :
    multiplyStep b (xorPair p q) k = xorPair (multiplyStep b p k) (multiplyStep b q k) := by
  cases hk : b.getLsbD k
  · simp [multiplyStep, xorPair, hk, doubleInField_xor]
  · simp only [multiplyStep, xorPair, hk, doubleInField_xor, if_true]
    ac_rfl

theorem multiplyStep_double (b : Byte) (p : Byte × Byte) (k : Nat) :
    multiplyStep b (p.map doubleInField doubleInField) k = (multiplyStep b p k).map doubleInField doubleInField := by
  cases hk : b.getLsbD k <;> simp [multiplyStep, hk, doubleInField_xor]

theorem xor_multiply (a b c : Byte) : multiply (a ^^^ b) c = multiply a c ^^^ multiply b c := by
  have hstart : ((0x00, a ^^^ b) : Byte × Byte) = xorPair (0x00, a) (0x00, b) := by simp [xorPair]
  rw [multiply, hstart, List.foldl_hom₂ _ xorPair _ _ _ _ _ fun p q k => (multiplyStep_xorPair c p q k).symm]
  rfl

@[simp] theorem doubleInField_multiply (a b : Byte) : multiply (doubleInField a) b = doubleInField (multiply a b) :=
  congrArg Prod.fst (List.foldl_hom (Prod.map doubleInField doubleInField) (init := (0, a)) (multiplyStep_double b))

@[simp] theorem zero_multiply (b : Byte) : multiply 0#8 b = 0#8 := by simpa using xor_multiply 0#8 0#8 b

@[simp] theorem one_multiply (b : Byte) : multiply 1#8 b = b := by
  revert b
  decide

/-! The laws of R104, by induction on the left operand. -/

theorem multiply_xor (a b c : Byte) : multiply a (b ^^^ c) = multiply a b ^^^ multiply a c := by
  induction a using byte_induction with
  | zero => simp
  | double a ih => simp [ih, doubleInField_xor]
  | addOne a ih =>
    simp only [xor_multiply, one_multiply, ih]
    ac_rfl

theorem multiply_doubleInField (a b : Byte) : multiply a (doubleInField b) = doubleInField (multiply a b) := by
  induction a using byte_induction with
  | zero => simp
  | double a ih => simp [ih]
  | addOne a ih => simp [xor_multiply, ih, doubleInField_xor]

theorem multiply_zero (a : Byte) : multiply a 0#8 = 0#8 := by simpa using multiply_xor a 0#8 0#8

theorem multiply_one (a : Byte) : multiply a 1#8 = a := by
  induction a using byte_induction with
  | zero => simp
  | double a ih => simp [ih]
  | addOne a ih => simp [xor_multiply, ih]

theorem multiply_comm (a b : Byte) : multiply a b = multiply b a := by
  induction a using byte_induction with
  | zero => simp [multiply_zero]
  | double a ih => simp [ih, multiply_doubleInField]
  | addOne a ih => simp [xor_multiply, multiply_xor, multiply_one, ih]

theorem multiply_assoc (a b c : Byte) : multiply (multiply a b) c = multiply a (multiply b c) := by
  induction a using byte_induction with
  | zero => simp
  | double a ih => simp [ih]
  | addOne a ih => simp [xor_multiply, ih]

/-! The products by 2, 4 and 8, which are 1 doubled (R105). -/

theorem two_multiply (a : Byte) : multiply 0x02 a = doubleInField a := by
  rw [show (0x02 : Byte) = doubleInField 1#8 from rfl, doubleInField_multiply, one_multiply]

theorem four_multiply (a : Byte) : multiply 0x04 a = doubleInField (doubleInField a) := by
  rw [show (0x04 : Byte) = doubleInField 0x02 from rfl, doubleInField_multiply, two_multiply]

theorem eight_multiply (a : Byte) : multiply 0x08 a = doubleInField (doubleInField (doubleInField a)) := by
  rw [show (0x08 : Byte) = doubleInField 0x04 from rfl, doubleInField_multiply, four_multiply]

/-! Doubling is a bijection: its inverse is multiplication by 0x8d, the field inverse of 2 (R102). -/

theorem doubleInField_bijective : Function.Bijective doubleInField := by
  have hinv (b : Byte) : doubleInField (multiply 0x8D b) = b :=
    calc doubleInField (multiply 0x8D b)
      _ = multiply (doubleInField 0x8D) b := (doubleInField_multiply ..).symm
      _ = b := one_multiply b
  exact Function.bijective_iff_has_inverse.mpr
    ⟨multiply 0x8D, fun b => (multiply_doubleInField _ b).trans (hinv b), hinv⟩

end Sys2Proof.Machine

namespace Sys2Proof.Proofs

open Sys2Proof Sys2Proof.Machine Sys2Proof.Claims

/-- Settles O30: the product is linear and commutes with doubling in each operand, which gives each law by induction on a
byte. -/
theorem multiplyLaws : Obligations.MultiplyLaws := by
  unfold Obligations.MultiplyLaws
  exact ⟨multiply_comm, multiply_assoc, multiply_xor, multiply_one⟩

/-- Settles O31: each constant is a sum of some of 1, 2, 4 and 8, and the product is linear in it. -/
theorem matrixConstantProducts : Obligations.MatrixConstantProducts := by
  unfold Obligations.MatrixConstantProducts
  refine ⟨doubleInField_bijective, ?_⟩
  rintro a _ _ _ rfl rfl rfl
  have h1 : multiply 0x01 a = a := one_multiply a
  rw [show (0x03 : Byte) = 0x02 ^^^ 0x01 from rfl, show (0x09 : Byte) = 0x08 ^^^ 0x01 from rfl,
    show (0x0B : Byte) = 0x08 ^^^ 0x02 ^^^ 0x01 from rfl, show (0x0D : Byte) = 0x08 ^^^ 0x04 ^^^ 0x01 from rfl,
    show (0x0E : Byte) = 0x08 ^^^ 0x04 ^^^ 0x02 from rfl]
  simp only [xor_multiply, h1, two_multiply, four_multiply, eight_multiply, and_self]

end Sys2Proof.Proofs
end

section
/-!
PROOFS. The two substitution tables (41_sbox.md). A round trip through both is checked on the 256 indices in one order;
the other order follows because a byte has finitely many values (R125). An entry of SBOX determines the `x` it is the
affine map of, since the affine map of R126 has an inverse; that this `x` is the field inverse of the index is then one
product per entry.
-/

namespace Sys2Proof.Machine

open Sys2Proof

/-! The round trips (R125). -/

@[simp] theorem inverseSubstitute_substitute (b : Byte) : inverseSubstitute (substitute b) = b := by
  revert b
  decide +kernel

@[simp] theorem substitute_inverseSubstitute (b : Byte) : substitute (inverseSubstitute b) = b :=
  Function.LeftInverse.rightInverse_of_card_le inverseSubstitute_substitute le_rfl b

/-! The generating definition (R126). -/

/-- R126: the affine map from the field inverse of an index to the entry of SBOX. -/
def affineMap (x : Byte) : Byte :=
  x ^^^ x.rotateLeft 1 ^^^ x.rotateLeft 2 ^^^ x.rotateLeft 3 ^^^ x.rotateLeft 4 ^^^ 0x63

/-- The inverse of R126's affine map. -/
def inverseAffineMap (y : Byte) : Byte := y.rotateLeft 1 ^^^ y.rotateLeft 3 ^^^ y.rotateLeft 6 ^^^ 0x05

theorem affineMap_inverseAffineMap (y : Byte) : affineMap (inverseAffineMap y) = y := by
  revert y
  decide +kernel

/-- What the entry of an index other than 0 is the affine map of, is the field inverse of that index. -/
theorem multiply_inverseAffineMap_substitute {b : Byte} (hb : b ≠ 0x00) :
    multiply b (inverseAffineMap (substitute b)) = 0x01 := by
  revert b
  decide +kernel

theorem inverseAffineMap_substitute_zero : inverseAffineMap (substitute 0x00) = 0x00 := rfl

end Sys2Proof.Machine

namespace Sys2Proof.Proofs

open Sys2Proof Sys2Proof.Machine Sys2Proof.Claims

/-- Settles O32: INVSBOX undoes SBOX on every byte, and so, on finitely many bytes, SBOX undoes INVSBOX. -/
theorem sBoxesAreInverse : Obligations.SBoxesAreInverse := by
  unfold Obligations.SBoxesAreInverse
  exact ⟨inverseSubstitute_substitute, substitute_inverseSubstitute⟩

/-- Settles O33: the `x` of an index is its entry under the inverse of the affine map. -/
theorem sBoxGeneratingDefinition : Obligations.SBoxGeneratingDefinition := by
  unfold Obligations.SBoxGeneratingDefinition
  refine fun b => ⟨inverseAffineMap (substitute b), ?_, (affineMap_inverseAffineMap (substitute b)).symm⟩
  by_cases hb : b = 0x00
  · exact .inl ⟨hb, hb ▸ inverseAffineMap_substitute_zero⟩
  · exact .inr (multiply_inverseAffineMap_substitute hb)

end Sys2Proof.Proofs
end

section
/-!
PROOFS. The key schedule (42_key_schedule.md): the word functions and the round constants (R140 to R143), the recurrence of
R144 and the one schedule that satisfies it, the command EXPAND (R149), and the micro-operations and micro-programs that
compute it step by step (R150, R242).
-/

namespace Sys2Proof.Machine

open Sys2Proof Sys2Proof.Claims

/-! The word functions (R140, R141, R144). -/

theorem word_eq_bytes (w : Word) : w = #v[w[0], w[1], w[2], w[3]] := by
  refine Word.ext_bytes fun k => ?_
  fin_cases k <;> rfl

theorem rotWord_eq (w : Word) : rotWord w = #v[w[1], w[2], w[3], w[0]] := by
  rw [word_eq_bytes (rotWord w)]
  simp

theorem subWord_eq (w : Word) : subWord w = #v[substitute w[0], substitute w[1], substitute w[2], substitute w[3]] := by
  rw [word_eq_bytes (subWord w)]
  simp

theorem subWord_rotWord (w : Word) : subWord (rotWord w) = rotWord (subWord w) := by
  simp [rotWord_eq, subWord_eq]

theorem rotWord_four (w : Word) : rotWord (rotWord (rotWord (rotWord w))) = w := by
  simp [rotWord_eq, ← word_eq_bytes]

@[simp] theorem xorByteZero_byte (w : Word) (rc : Byte) (k : Nat) (hk : k < 4) :
    (xorByteZero w rc)[k] = w[k] ^^^ if k = 0 then rc else 0x00 := by
  by_cases h : k = 0
  · subst h
    simp [xorByteZero]
  · simp [xorByteZero, Vector.getElem_set_ne, h, Ne.symm h]

@[simp] theorem takesRoundConstant_iff (j : Fin 40) : takesRoundConstant j = true ↔ (j.val + 4) % 4 = 0 := by
  simp only [takesRoundConstant, beq_iff_eq]

/-- `temp` of R144, byte by byte. -/
theorem scheduleTemp_byte (rc : Byte) (j : Fin 40) (W : Schedule) (k : Nat) (hk : k < 4) :
    (scheduleTemp rc j W)[k] =
      if (j.val + 4) % 4 = 0 then
        substitute ((W[j.val + 3])[(k + 1) % 4]'(Nat.mod_lt _ (by decide))) ^^^ (if k = 0 then rc else 0x00)
      else (W[j.val + 3])[k] := by
  simp only [scheduleTemp, takesRoundConstant_iff]
  split
  · rw [xorByteZero_byte, subWord_byte, rotWord_byte]
  · rfl

/-! The round constants (R142, R143). -/

theorem rcon_succ {j : Nat} (hj : 1 ≤ j) : rcon (j + 1) = doubleInField (rcon j) := by
  obtain ⟨n, rfl⟩ := Nat.exists_eq_add_of_le' hj
  rfl

theorem rcon_eq_roundConstants (j : Fin 10) : rcon (j.val + 1) = roundConstants[j] := by
  revert j
  decide

/-! The recurrence, word by word, and its one solution (R144, R146). -/

theorem isExpansion_iff (key : Block) (W : Schedule) :
    IsExpansion key W ↔
      (∀ i : Fin 4, W[i.val] = keyWord key i) ∧
        ∀ j : Fin 40, W[j.val + 4] = xorWord W[j.val] (scheduleTemp (rcon ((j.val + 4) / 4)) j W) := by
  have hrcon (j : Fin 40) : rcon ((j.val + 4) / 4) = roundConstants[j.val / 4] := by
    rw [Nat.add_div_right _ (by decide)]
    exact rcon_eq_roundConstants ⟨j.val / 4, by omega⟩
  have hword (u v : Word) : u = v ↔ ∀ k : Fin 4, u[k] = v[k] := ⟨fun h _ => h ▸ rfl, Word.ext_bytes⟩
  simp only [IsExpansion, hword, Fin.getElem_fin, keyWord_byte, xorWord_byte, scheduleTemp_byte, hrcon]

theorem isExpansion_expand (key : Block) : IsExpansion key (expand key) :=
  (isExpansion_iff key _).mpr ⟨expand_keyWord key, expand_word key⟩

/-- A word is determined by the two words before it that the recurrence names. -/
theorem isExpansion_unique {key : Block} {V W : Schedule} (hV : IsExpansion key V) (hW : IsExpansion key W) : V = W := by
  obtain ⟨hkeyV, hwordV⟩ := (isExpansion_iff key V).mp hV
  obtain ⟨hkeyW, hwordW⟩ := (isExpansion_iff key W).mp hW
  have hword (i : Nat) : ∀ hi : i < 44, V[i] = W[i] := by
    induction i using Nat.strong_induction_on with
    | _ i ih =>
      intro hi
      obtain hlow | hhigh := Nat.lt_or_ge i 4
      · exact (hkeyV ⟨i, hlow⟩).trans (hkeyW ⟨i, hlow⟩).symm
      · obtain ⟨j, rfl⟩ := Nat.exists_eq_add_of_le' hhigh
        calc V[j + 4] = xorWord V[j] (scheduleTemp (rcon ((j + 4) / 4)) ⟨j, by omega⟩ V) := hwordV ⟨j, by omega⟩
          _ = xorWord W[j] (scheduleTemp (rcon ((j + 4) / 4)) ⟨j, by omega⟩ W) := by
            rw [ih j (by omega), scheduleTemp_congr (ih (j + 3) (by omega) (by omega))]
          _ = W[j + 4] := (hwordW ⟨j, by omega⟩).symm
  exact Schedule.ext_words fun i => hword i i.isLt

/-! EXPAND (R149). -/

theorem exec_accepted {c : Instr} {s : State} (hb : s.busy = false) (hr : rejection c s = none) :
    exec c s = .next (completeCommand (effectOf c s)) :=
  (exec_eq_runCommand c s).trans (runCommand_accepted _ hb hr)

theorem rejection_expand (s : State) :
    rejection .expand s = if s.keylen = 16 then none else some .invalidKeyLength := by
  simp [rejection_wellFormed s (c := .expand) rfl, lengthChecks, LengthCheck.error, Config.keyLength]

/-! The micro-operations of an expansion (R150, R241). -/

theorem kinitEffect_eq (s : State) : kinitEffect s = { s with rk := loadKeyWords s.key s.rk, rc := 0x01 } := by
  simp only [kinitEffect, State.withRk, State.withRc]

/-! The micro-programs, index by index (R242 to R245). -/

theorem length_encProgram : encProgram.length = 42 := rfl
theorem length_decProgram : decProgram.length = 42 := rfl

theorem microProgram_ark (r : Fin 11) : microProgram (.ark (BitVec.ofNat 4 r.val)) = [.ark r] := by
  simp [microProgram, arkProgram, roundIndex_ofNat]

theorem length_microProgram_ark {r : BitVec 4} (h : (Instr.ark r).wellFormed = true) :
    (microProgram (.ark r)).length = 1 := by
  obtain ⟨round, hround, -⟩ := roundIndex_eq_some (by simpa [Instr.wellFormed] using h)
  simp [microProgram, arkProgram, hround]

/-- R243: round `r` of ENC takes micro-steps 4r - 2 to 4r + 1. -/
theorem encProgram_round {r : Fin 11} (h1 : 1 ≤ r.val) (h9 : r.val ≤ 9) :
    encProgram[2 + 4 * (r.val - 1)]? = some .sb ∧ encProgram[3 + 4 * (r.val - 1)]? = some .sr ∧
      encProgram[4 + 4 * (r.val - 1)]? = some .mc ∧ encProgram[5 + 4 * (r.val - 1)]? = some (.ark r) := by
  revert r
  decide

/-- R244: DEC's rounds count down. -/
theorem decProgram_round {r : Fin 11} (h1 : 1 ≤ r.val) (h9 : r.val ≤ 9) :
    decProgram[2 + 4 * (9 - r.val)]? = some .isr ∧ decProgram[3 + 4 * (9 - r.val)]? = some .isb ∧
      decProgram[4 + 4 * (9 - r.val)]? = some (.ark r) ∧ decProgram[5 + 4 * (9 - r.val)]? = some .imc := by
  revert r
  decide

/-- R245: a fused command's program is EXPAND's, then the cipher's from index 41 on. -/
theorem getElem?_expandProgram_append (program : List MicroOp) (n : Fin 42) :
    (expandProgram ++ program)[n.val]? = (if n.val < 41 then expandProgram[n.val]? else program[0]?) ∧
      (expandProgram ++ program)[41 + n.val]? = program[n.val]? := by
  constructor
  · rw [List.getElem?_append, length_expandProgram, show n.val - 41 = 0 by omega]
  · rw [List.getElem?_append_right (by rw [length_expandProgram]; omega), length_expandProgram, Nat.add_sub_cancel_left]

end Sys2Proof.Machine

namespace Sys2Proof.Proofs

open Sys2Proof Sys2Proof.Machine Sys2Proof.Claims

/-- Settles O18: EXPAND's schedule is `expand`'s, which satisfies the recurrence, and its one check is KEYLEN's. -/
theorem expandResult : Obligations.ExpandResult := by
  unfold Obligations.ExpandResult
  refine ⟨rfl, fun s hb => ⟨fun hk => ⟨expand s.key, isExpansion_expand s.key, ?_⟩, fun hk => ?_⟩⟩
  · rw [exec_accepted hb (by rw [rejection_expand, if_pos hk]), effectOf, expandEffect_eq, completeCommand_eq]
    rfl
  · exact exec_rejected hb (by rw [rejection_expand, if_neg hk])

/-- Settles O36: `expand` satisfies the recurrence, and the recurrence determines a schedule word by word. -/
theorem expandIsTheRecurrence : Obligations.ExpandIsTheRecurrence := by
  unfold Obligations.ExpandIsTheRecurrence
  intro key W
  constructor
  · rintro rfl
    exact isExpansion_expand key
  · exact fun h => isExpansion_unique h (isExpansion_expand key)

/-- Settles O40: `uKINIT` writes words 0..3 and `uKW(i)` word i alone, whose bytes are `temp`'s XORed into word i - 4's. -/
theorem expansionMicroOps : Obligations.ExpansionMicroOps := by
  unfold Obligations.ExpansionMicroOps
  refine fun s => ⟨⟨loadKeyWords s.key s.rk, fun i k => ?_, fun i hi => ?_, kinitEffect_eq s⟩, fun j =>
    ⟨expandWord s.rc j s.rk, fun i hi => ?_, fun k => ?_, ?_⟩⟩
  · rw [loadKeyWords_word, dif_pos i.isLt]
    exact keyWord_byte s.key i k k.isLt
  · rw [Fin.getElem_fin, loadKeyWords_word, dif_neg (by omega), Fin.getElem_fin]
  · rw [Fin.getElem_fin, expandWord_word, if_neg (Ne.symm hi), Fin.getElem_fin]
  · rw [expandWord_word, if_pos rfl, Fin.getElem_fin, xorWord_byte, scheduleTemp_byte]
    rfl
  · have hlast : j.val = 39 ↔ j.val + 4 = 43 := by omega
    simp only [microEffect, kwEffect_eq, nextRoundConstant, takesRoundConstant_iff, hlast]
    rfl

/-- Settles O34: the recurrence is the definition's, and the ten constants follow by it. -/
theorem roundConstants : Obligations.RoundConstants := by
  unfold Obligations.RoundConstants
  exact ⟨rfl, fun _ => rcon_succ, rcon_eq_roundConstants⟩

/-- Settles O35, from the four bytes of each function's word. -/
theorem wordFunctions : Obligations.WordFunctions := by
  unfold Obligations.WordFunctions
  exact fun w => ⟨rotWord_eq w, subWord_eq w, subWord_rotWord w, rotWord_four w⟩

/-- Settles O39: each program is what its table says, a fused one by the length of EXPAND's. -/
theorem microProgramTables : Obligations.MicroProgramTables := by
  unfold Obligations.MicroProgramTables
  refine ⟨fun c hc => ?_, ⟨rfl, rfl, microProgram_ark, rfl, rfl, rfl, rfl, rfl, rfl, rfl, rfl, rfl⟩,
    ⟨expandProgram_zero, fun j => ?_⟩,
    ⟨rfl, rfl, fun _ => encProgram_round, rfl, rfl, rfl, rfl⟩,
    ⟨rfl, rfl, fun _ => decProgram_round, rfl, rfl, rfl, rfl⟩, fun n => ?_⟩
  · cases c with
    | ark r => exact length_microProgram_ark hc
    | expand => exact length_expandProgram
    | enck => rw [microProgram, List.length_append, length_expandProgram, length_encProgram]
    | deck => rw [microProgram, List.length_append, length_expandProgram, length_decProgram]
    | load | store | sb | sr | mc | isb | isr | imc | enc | dec => rfl
  · rw [Nat.add_comm]
    exact expandProgram_succ j
  · obtain ⟨henc, henc'⟩ := getElem?_expandProgram_append encProgram n
    obtain ⟨hdec, hdec'⟩ := getElem?_expandProgram_append decProgram n
    exact ⟨henc, henc', hdec, hdec'⟩

end Sys2Proof.Proofs
end

section
/-!
PROOFS. The round transforms (43_round_transforms.md): the entry of each as R170 to R176 write it, which bytes it depends on
(R189), its block form (R170, R173, R174), and the inverse pairs (R177). `mixWith` is the product of 4 x 4 matrices over the
field, so it is associative, and the two mixing matrices are inverse to each other. Then the nine step commands (R180 to
R188): each writes STATE or DOUT alone, and LOAD and ARK check one length.
-/

namespace Sys2Proof.Machine

open Sys2Proof

/-! The columns that ShiftRows and InvShiftRows read undo each other (R173, R174). -/

theorem shiftRows_column_cancel {r c : Nat} (hr : r < 4) (hc : c < 4) : ((c + r) % 4 + (4 - r)) % 4 = c := by omega

theorem invShiftRows_column_cancel {r c : Nat} (hr : r < 4) (hc : c < 4) : ((c + (4 - r)) % 4 + r) % 4 = c := by omega

/-- R174 as R187 uses it: the byte at column `c` of row `r` goes to column `(c + r) mod 4`. -/
theorem invShiftRows_entry_add (S : StateMatrix) (r c : Fin 4) :
    ((invShiftRows S)[r])[(c.val + r.val) % 4]'(Nat.mod_lt _ (by decide)) = (S[r])[c] := by
  simp only [Fin.getElem_fin, invShiftRows_entry, shiftRows_column_cancel r.isLt c.isLt]

theorem invShiftRows_shiftRows (S : StateMatrix) : invShiftRows (shiftRows S) = S := by
  apply StateMatrix.ext_entries
  intro r c
  simp only [Fin.getElem_fin, invShiftRows_entry, shiftRows_entry, invShiftRows_column_cancel r.isLt c.isLt]

theorem shiftRows_invShiftRows (S : StateMatrix) : shiftRows (invShiftRows S) = S := by
  apply StateMatrix.ext_entries
  intro r c
  simp only [Fin.getElem_fin, invShiftRows_entry, shiftRows_entry, shiftRows_column_cancel r.isLt c.isLt]

/-! SubBytes and AddRoundKey undo byte by byte (R125, R177). -/

theorem invSubBytes_subBytes (S : StateMatrix) : invSubBytes (subBytes S) = S := by
  apply StateMatrix.ext_entries
  simp

theorem subBytes_invSubBytes (S : StateMatrix) : subBytes (invSubBytes S) = S := by
  apply StateMatrix.ext_entries
  simp

theorem addRoundKey_addRoundKey (S : StateMatrix) (W : Schedule) (r : Fin 11) :
    addRoundKey (addRoundKey S W r) W r = S := by
  apply StateMatrix.ext_entries
  simp

/-! Multiplying by a matrix over the field (R175, R176). -/

/-- One row of a product, by the four entries of that row of the left matrix. -/
theorem mixWith_row {M : StateMatrix} {r : Nat} {hr : r < 4} {m₀ m₁ m₂ m₃ : Byte} (h : M[r] = #v[m₀, m₁, m₂, m₃])
    (S : StateMatrix) (c : Fin 4) :
    ((mixWith M S)[r])[c] =
      multiply m₀ (S[0])[c] ^^^ multiply m₁ (S[1])[c] ^^^ multiply m₂ (S[2])[c] ^^^ multiply m₃ (S[3])[c] := by
  rw [Fin.getElem_fin, mixWith_entry S M r c hr c.isLt, h]
  rfl

/-- A column of a product depends on that column of the right matrix alone. -/
theorem mixWith_congr_column (M : StateMatrix) {S T : StateMatrix} {c : Fin 4} (h : ∀ r : Fin 4, (S[r])[c] = (T[r])[c])
    (r : Fin 4) : ((mixWith M S)[r])[c] = ((mixWith M T)[r])[c] := by
  have h0 : (S[0])[c] = (T[0])[c] := h 0
  have h1 : (S[1])[c] = (T[1])[c] := h 1
  have h2 : (S[2])[c] = (T[2])[c] := h 2
  have h3 : (S[3])[c] = (T[3])[c] := h 3
  simp only [Fin.getElem_fin] at h0 h1 h2 h3 ⊢
  simp only [mixWith_entry, h0, h1, h2, h3]

theorem mixWith_assoc (L M S : StateMatrix) : mixWith L (mixWith M S) = mixWith (mixWith L M) S := by
  apply StateMatrix.ext_entries
  intro r c
  simp only [Fin.getElem_fin, mixWith_entry, multiply_xor, xor_multiply, multiply_assoc]
  ac_rfl

/-- The matrix with 1 on the diagonal and 0 elsewhere. -/
def identityMatrix : StateMatrix := circulant #v[1, 0, 0, 0]

theorem identityMatrix_rows :
    identityMatrix[0] = #v[1, 0, 0, 0] ∧ identityMatrix[1] = #v[0, 1, 0, 0] ∧ identityMatrix[2] = #v[0, 0, 1, 0] ∧
      identityMatrix[3] = #v[0, 0, 0, 1] := by decide

theorem identityMatrix_mixWith (S : StateMatrix) : mixWith identityMatrix S = S := by
  obtain ⟨h0, h1, h2, h3⟩ := identityMatrix_rows
  apply StateMatrix.ext_entries
  intro r c
  fin_cases r
  · simpa using mixWith_row h0 S c
  · simpa using mixWith_row h1 S c
  · simpa using mixWith_row h2 S c
  · simpa using mixWith_row h3 S c

/-- R177: the two matrices of R8 are inverse to each other. -/
theorem invMixMatrix_mixWith_mixMatrix : mixWith invMixMatrix mixMatrix = identityMatrix := by decide

theorem mixMatrix_mixWith_invMixMatrix : mixWith mixMatrix invMixMatrix = identityMatrix := by decide

theorem invMixColumns_mixColumns (S : StateMatrix) : invMixColumns (mixColumns S) = S :=
  calc mixWith invMixMatrix (mixWith mixMatrix S)
    _ = mixWith (mixWith invMixMatrix mixMatrix) S := mixWith_assoc ..
    _ = S := by rw [invMixMatrix_mixWith_mixMatrix, identityMatrix_mixWith]

theorem mixColumns_invMixColumns (S : StateMatrix) : mixColumns (invMixColumns S) = S :=
  calc mixWith mixMatrix (mixWith invMixMatrix S)
    _ = mixWith (mixWith mixMatrix invMixMatrix) S := mixWith_assoc ..
    _ = S := by rw [mixMatrix_mixWith_invMixMatrix, identityMatrix_mixWith]

/-! The transforms on the block (R170, R173, R174). -/

/-- R173: the block byte that byte `n` of ShiftRows comes from. -/
def shiftRowsSource : Vector (Fin 16) 16 := #v[0, 5, 10, 15, 4, 9, 14, 3, 8, 13, 2, 7, 12, 1, 6, 11]

/-- R174: the block byte that byte `n` of InvShiftRows comes from. -/
def invShiftRowsSource : Vector (Fin 16) 16 := #v[0, 13, 10, 7, 4, 1, 14, 11, 8, 5, 2, 15, 12, 9, 6, 3]

/-- P keeps the row of a byte and adds the row to its column. -/
theorem shiftRowsSource_row_column (n : Fin 16) :
    shiftRowsSource[n].val % 4 = n.val % 4 ∧ shiftRowsSource[n].val / 4 = (n.val / 4 + n.val % 4) % 4 := by
  revert n
  decide

/-- Q keeps the row of a byte and subtracts the row from its column. -/
theorem invShiftRowsSource_row_column (n : Fin 16) :
    invShiftRowsSource[n].val % 4 = n.val % 4 ∧
      invShiftRowsSource[n].val / 4 = (n.val / 4 + (4 - n.val % 4)) % 4 := by
  revert n
  decide

theorem fromState_addRoundKey_byte (S : StateMatrix) (W : Schedule) (r : Fin 11) (n : Fin 16) :
    (fromState (addRoundKey S W r))[n] = (fromState S)[n] ^^^ (W[4 * r.val + n.val / 4])[n.val % 4] := by
  simp

theorem fromState_shiftRows_byte (S : StateMatrix) (n : Fin 16) :
    (fromState (shiftRows S))[n] = (fromState S)[shiftRowsSource[n]] := by
  obtain ⟨hrow, hcol⟩ := shiftRowsSource_row_column n
  simp only [Fin.getElem_fin] at hrow hcol ⊢
  simp [hrow, hcol]

theorem fromState_invShiftRows_byte (S : StateMatrix) (n : Fin 16) :
    (fromState (invShiftRows S))[n] = (fromState S)[invShiftRowsSource[n]] := by
  obtain ⟨hrow, hcol⟩ := invShiftRowsSource_row_column n
  simp only [Fin.getElem_fin] at hrow hcol ⊢
  simp [hrow, hcol]

/-! Validation of the step commands (R180 to R188, R221). -/

theorem rejection_unchecked {c : Instr} (s : State) (hc : c.wellFormed = true ∧ lengthChecks c = []) :
    rejection c s = none := by
  obtain ⟨hwf, hchecks⟩ := hc
  rw [rejection_wellFormed s hwf, hchecks, firstFailure_nil]

theorem rejection_load (s : State) : rejection .load s = if s.blklen = 16 then none else some .invalidBlockLength := by
  simp [rejection_wellFormed s (c := .load) rfl, lengthChecks, LengthCheck.error, Config.blockLength]

theorem wellFormed_ark_iff (r : BitVec 4) : (Instr.ark r).wellFormed = true ↔ r.toNat ≤ 10 := by
  simp [Instr.wellFormed, BitVec.le_def]

theorem rejection_ark (r : Fin 11) (s : State) :
    rejection (.ark (BitVec.ofNat 4 r.val)) s = if s.rklen = 44 then none else some .invalidScheduleLength := by
  have hwf : (Instr.ark (BitVec.ofNat 4 r.val)).wellFormed = true := by
    rw [wellFormed_ark_iff, BitVec.toNat_ofNat]
    omega
  simp [rejection_wellFormed s hwf, lengthChecks, LengthCheck.error, Config.scheduleLength]

theorem rejection_ark_of_lt {r : BitVec 4} (s : State) (hr : 10 < r.toNat) : rejection (.ark r) s = some .illegalCommand :=
  rejection_illFormed s (Bool.eq_false_iff.mpr fun hwf => Nat.not_le_of_lt hr ((wellFormed_ark_iff r).mp hwf))

/-- R81: ARK's byte. -/
theorem encode_ark (r : Fin 11) : encode (.ark (BitVec.ofNat 4 r.val)) = 0x30#8 ||| BitVec.ofNat 8 r.val := by
  revert r
  decide

/-! The whole next state of an accepted command that writes STATE alone, or DOUT alone (R223). -/

theorem exec_of_effect_withMatrix {c : Instr} {s : State} {M : StateMatrix} (hb : s.busy = false)
    (hr : rejection c s = none) (heffect : effectOf c s = s.withMatrix M) :
    exec c s = .next { s with matrix := M, status := 0x02, seq := .idle } := by
  rw [exec_accepted hb hr, heffect, completeCommand_eq]
  rfl

theorem exec_unchecked_withMatrix {c : Instr} {s : State} {M : StateMatrix} (hb : s.busy = false)
    (hc : c.wellFormed = true ∧ lengthChecks c = []) (heffect : effectOf c s = s.withMatrix M) :
    exec c s = .next { s with matrix := M, status := 0x02, seq := .idle } :=
  exec_of_effect_withMatrix hb (rejection_unchecked s hc) heffect

theorem exec_of_effect_withDout {c : Instr} {s : State} {B : Block} (hb : s.busy = false)
    (hr : rejection c s = none) (heffect : effectOf c s = s.withDout B) :
    exec c s = .next { s with dout := B, status := 0x02, seq := .idle } := by
  rw [exec_accepted hb hr, heffect, completeCommand_eq]
  rfl

theorem effectOf_ark (r : Fin 11) (s : State) :
    effectOf (.ark (BitVec.ofNat 4 r.val)) s = s.withMatrix (addRoundKey s.matrix s.rk r) := by
  simp only [effectOf, arkImmediateEffect, roundIndex_ofNat, arkEffect]

end Sys2Proof.Machine

namespace Sys2Proof.Proofs

open Sys2Proof Sys2Proof.Machine

/-- Settles O12: LOAD's effect is `toState`, and its one check is BLKLEN's. -/
theorem loadResult : Obligations.LoadResult := by
  unfold Obligations.LoadResult
  refine ⟨rfl, fun s hb => ⟨fun hlen => ⟨toState s.din, fun r c => ?_, ?_⟩, fun hlen => ?_⟩⟩
  · exact toState_entry s.din r c r.isLt c.isLt
  · exact exec_of_effect_withMatrix hb (by rw [rejection_load, if_pos hlen]) rfl
  · exact exec_rejected hb (by rw [rejection_load, if_neg hlen])

/-- Settles O13: STORE's effect is `fromState`, and it checks nothing. -/
theorem storeResult : Obligations.StoreResult := by
  unfold Obligations.StoreResult
  exact ⟨rfl, fun s hb => ⟨fromState s.matrix, fun n => fromState_byte s.matrix n n.isLt,
    exec_of_effect_withDout hb (rejection_unchecked s ⟨rfl, rfl⟩) rfl⟩⟩

/-- Settles O14: ARK's effect is `addRoundKey` at the round its immediate selects, its one check is RKLEN's, and a term
with a round above 10 is ill-formed. -/
theorem arkResult : Obligations.ArkResult := by
  unfold Obligations.ArkResult
  refine fun s hb => ⟨fun r => ⟨encode_ark r, fun hlen => ?_, fun hlen => ?_⟩, fun r hr => ?_⟩
  · refine ⟨addRoundKey s.matrix s.rk r, fun row col => addRoundKey_entry _ _ r row col row.isLt col.isLt, ?_⟩
    exact exec_of_effect_withMatrix hb (by rw [rejection_ark r s, if_pos hlen]) (effectOf_ark r s)
  · exact exec_rejected hb (by rw [rejection_ark r s, if_neg hlen])
  · exact exec_rejected hb (rejection_ark_of_lt s hr)

/-- Settles O15, by the entries of `subBytes` and `invSubBytes`; neither command checks anything. -/
theorem subBytesCommandsResult : Obligations.SubBytesCommandsResult := by
  unfold Obligations.SubBytesCommandsResult
  refine ⟨rfl, rfl, fun s hb => ⟨⟨subBytes s.matrix, fun r c => ?_, exec_unchecked_withMatrix hb ⟨rfl, rfl⟩ rfl⟩,
    ⟨invSubBytes s.matrix, fun r c => ?_, exec_unchecked_withMatrix hb ⟨rfl, rfl⟩ rfl⟩⟩⟩
  · exact subBytes_entry s.matrix r c r.isLt c.isLt
  · exact invSubBytes_entry s.matrix r c r.isLt c.isLt

/-- Settles O16, by the entries of `shiftRows` and `invShiftRows`; neither command checks anything. -/
theorem shiftRowsCommandsResult : Obligations.ShiftRowsCommandsResult := by
  unfold Obligations.ShiftRowsCommandsResult
  refine ⟨rfl, rfl, fun s hb => ⟨⟨shiftRows s.matrix, fun r c => ?_, exec_unchecked_withMatrix hb ⟨rfl, rfl⟩ rfl⟩,
    ⟨invShiftRows s.matrix, invShiftRows_entry_add s.matrix, exec_unchecked_withMatrix hb ⟨rfl, rfl⟩ rfl⟩⟩⟩
  exact shiftRows_entry s.matrix r c r.isLt c.isLt

/-- Settles O17, by the rows of the two matrices; neither command checks anything. -/
theorem mixColumnsCommandsResult : Obligations.MixColumnsCommandsResult := by
  unfold Obligations.MixColumnsCommandsResult
  obtain ⟨h0, h1, h2, h3⟩ := mixMatrix_rows
  obtain ⟨k0, k1, k2, k3⟩ := invMixMatrix_rows
  refine ⟨rfl, rfl, fun s hb => ⟨⟨mixColumns s.matrix, fun c => ?_, exec_unchecked_withMatrix hb ⟨rfl, rfl⟩ rfl⟩,
    ⟨invMixColumns s.matrix, fun c => ?_, exec_unchecked_withMatrix hb ⟨rfl, rfl⟩ rfl⟩⟩⟩
  · simp only [mixColumns, mixWith_row h0, mixWith_row h1, mixWith_row h2, mixWith_row h3, BitVec.ofNat_eq_ofNat,
      one_multiply, and_self]
  · exact ⟨mixWith_row k0 _ c, mixWith_row k1 _ c, mixWith_row k2 _ c, mixWith_row k3 _ c⟩

/-- Settles O26: the S-boxes, the column shifts and the mixing matrices are inverse to each other, and adding a byte twice
adds nothing. -/
theorem transformsAreInversePairs : Obligations.TransformsAreInversePairs := by
  unfold Obligations.TransformsAreInversePairs
  exact fun S W r => ⟨invSubBytes_subBytes S, subBytes_invSubBytes S, invShiftRows_shiftRows S, shiftRows_invShiftRows S,
    invMixColumns_mixColumns S, mixColumns_invMixColumns S, addRoundKey_addRoundKey S W r⟩

/-- Settles O28: P and Q name, for each block byte, the row and the column that the transforms read. -/
theorem transformsInBlockTerms : Obligations.TransformsInBlockTerms := by
  unfold Obligations.TransformsInBlockTerms
  exact fun S W r n => ⟨fromState_addRoundKey_byte S W r n, fromState_shiftRows_byte S n, fromState_invShiftRows_byte S n⟩

/-- Settles O29, by the entry of each transform. -/
theorem transformLanes : Obligations.TransformLanes := by
  unfold Obligations.TransformLanes
  refine fun S T V W round c => ⟨fun r hbyte => ⟨?_, ?_, fun hkey => ?_⟩, fun hcol r => ?_, fun r => ?_⟩
  · simpa using congrArg substitute hbyte
  · simpa using congrArg inverseSubstitute hbyte
  · simpa using congrArg₂ (· ^^^ ·) hbyte hkey
  · exact ⟨mixWith_congr_column mixMatrix hcol r, mixWith_congr_column invMixMatrix hcol r⟩
  · exact ⟨⟨(c.val + r.val) % 4, Nat.mod_lt _ (by decide)⟩, ⟨(c.val + (4 - r.val)) % 4, Nat.mod_lt _ (by decide)⟩,
      fun U => ⟨shiftRows_entry U r c r.isLt c.isLt, invShiftRows_entry U r c r.isLt c.isLt⟩⟩

end Sys2Proof.Proofs
end

section
/-!
PROOFS. The cipher and the sequencer (44_cipher_sequencer.md). Encrypt and Decrypt as functions (R225, R226): the state
after each round, and that each of Decrypt's rounds takes back one of Encrypt's (R229). The commands ENC, DEC, ENCK and DECK
(R231 to R234), by the two pairs of lengths they check. Then the sequencer: which bytes it accepts (R220, R221), what one
micro-step does (R241, R223), that a command's micro-steps are its one atomic step (R247), and that they end (R246).
-/

namespace Sys2Proof.Machine

open Sys2Proof Sys2Proof.Claims

/-! The state after each round (R225, R226). -/

/-- A loop's state after its first `n + 1` turns, from that after the first `n`. -/
theorem foldl_take_succ {α β : Type} (f : β → α → β) (b : β) {turns : List α} {n : Nat} {a : α}
    (h : turns[n]? = some a) : (turns.take (n + 1)).foldl f b = f ((turns.take n).foldl f b) a := by
  simp [List.take_add_one, h]

theorem encryptRounds_getElem? {r : Fin 11} (h1 : 1 ≤ r.val) (h9 : r.val ≤ 9) : encryptRounds[r.val - 1]? = some r := by
  revert r
  decide

theorem decryptRounds_getElem? {r : Fin 11} (h1 : 1 ≤ r.val) (h9 : r.val ≤ 9) :
    decryptRounds[10 - (r.val + 1)]? = some r := by
  revert r
  decide

/-- Encrypt's state after AddRoundKey(0) and the first `n` of rounds 1..9. -/
def encryptUpTo (blk : Block) (W : Schedule) (n : Nat) : StateMatrix :=
  (encryptRounds.take n).foldl (encryptRound W) (addRoundKey (toState blk) W 0)

/-- Decrypt's state after AddRoundKey(10) and the first `n` of rounds 9..1. -/
def decryptUpTo (blk : Block) (W : Schedule) (n : Nat) : StateMatrix :=
  (decryptRounds.take n).foldl (decryptRound W) (addRoundKey (toState blk) W 10)

theorem encryptUpTo_round (blk : Block) (W : Schedule) {r : Fin 11} (h1 : 1 ≤ r.val) (h9 : r.val ≤ 9) :
    encryptUpTo blk W r.val = encryptRound W (encryptUpTo blk W (r.val - 1)) r := by
  have hstep := foldl_take_succ (encryptRound W) (addRoundKey (toState blk) W 0) (encryptRounds_getElem? h1 h9)
  rwa [Nat.sub_add_cancel h1] at hstep

theorem decryptUpTo_round (blk : Block) (W : Schedule) {r : Fin 11} (h1 : 1 ≤ r.val) (h9 : r.val ≤ 9) :
    decryptUpTo blk W (10 - r.val) = decryptRound W (decryptUpTo blk W (10 - (r.val + 1))) r := by
  have hstep := foldl_take_succ (decryptRound W) (addRoundKey (toState blk) W 10) (decryptRounds_getElem? h1 h9)
  rwa [show 10 - (r.val + 1) + 1 = 10 - r.val by omega] at hstep

theorem encrypt_eq_encryptLast (blk : Block) (W : Schedule) :
    encrypt blk W = fromState (encryptLast W (encryptUpTo blk W 9)) := rfl

theorem decrypt_eq_decryptLast (blk : Block) (W : Schedule) :
    decrypt blk W = fromState (decryptLast W (decryptUpTo blk W 9)) := rfl

/-- R225: Encrypt's state after round `r`. -/
def encryptState (blk : Block) (W : Schedule) (r : Fin 11) : StateMatrix :=
  if r = 10 then encryptLast W (encryptUpTo blk W 9) else encryptUpTo blk W r.val

/-- R226: Decrypt's state after round `r`, counted down. -/
def decryptState (blk : Block) (W : Schedule) (r : Fin 11) : StateMatrix :=
  if r = 0 then decryptLast W (decryptUpTo blk W 9) else decryptUpTo blk W (10 - r.val)

theorem encryptState_of_le {blk : Block} {W : Schedule} {r : Fin 11} (h9 : r.val ≤ 9) :
    encryptState blk W r = encryptUpTo blk W r.val :=
  if_neg (by omega)

theorem decryptState_of_ge {blk : Block} {W : Schedule} {r : Fin 11} (h1 : 1 ≤ r.val) :
    decryptState blk W r = decryptUpTo blk W (10 - r.val) :=
  if_neg (by omega)

/-! Decrypt takes Encrypt back (R229). -/

/-- SubBytes, then ShiftRows: the part of an encryption round before the key. -/
def shiftSub (S : StateMatrix) : StateMatrix := shiftRows (subBytes S)

/-- InvShiftRows, then InvSubBytes: the part of a decryption round before the key. -/
def invShiftSub (S : StateMatrix) : StateMatrix := invSubBytes (invShiftRows S)

@[simp] theorem invShiftSub_shiftSub (S : StateMatrix) : invShiftSub (shiftSub S) = S := by
  rw [invShiftSub, shiftSub, invShiftRows_shiftRows, invSubBytes_subBytes]

@[simp] theorem shiftSub_invShiftSub (S : StateMatrix) : shiftSub (invShiftSub S) = S := by
  rw [shiftSub, invShiftSub, subBytes_invSubBytes, shiftRows_invShiftRows]

/-- A decryption round takes back the encryption round of the same key, and leaves the part before the key of the round
before it to be taken back next. -/
theorem decryptRound_encryptRound (W : Schedule) (S : StateMatrix) (r : Fin 11) :
    decryptRound W (shiftSub (encryptRound W S r)) r = shiftSub S :=
  calc invMixColumns (addRoundKey (invShiftSub (shiftSub (encryptRound W S r))) W r)
    _ = invMixColumns (addRoundKey (addRoundKey (mixColumns (shiftSub S)) W r) W r) := by
      rw [invShiftSub_shiftSub]
      rfl
    _ = shiftSub S := by rw [addRoundKey_addRoundKey, invMixColumns_mixColumns]

theorem encryptRound_decryptRound (W : Schedule) (S : StateMatrix) (r : Fin 11) :
    encryptRound W (invShiftSub (decryptRound W S r)) r = invShiftSub S :=
  calc addRoundKey (mixColumns (shiftSub (invShiftSub (decryptRound W S r)))) W r
    _ = addRoundKey (mixColumns (invMixColumns (addRoundKey (invShiftSub S) W r))) W r := by
      rw [shiftSub_invShiftSub]
      rfl
    _ = invShiftSub S := by rw [mixColumns_invMixColumns, addRoundKey_addRoundKey]

/-- Turns taken back one by one, in the reverse order, up to a change `h` of the state. -/
theorem foldl_reverse_cancel {α β : Type} {f g : β → α → β} {h : β → β} (hcancel : ∀ b a, g (h (f b a)) a = h b)
    (turns : List α) (b : β) : turns.reverse.foldl g (h (turns.foldl f b)) = h b := by
  induction turns generalizing b with
  | nil => rfl
  | cons a turns ih => rw [List.foldl_cons, List.reverse_cons, List.foldl_concat, ih, hcancel]

theorem decryptRounds_eq_reverse : decryptRounds = encryptRounds.reverse := rfl
theorem encryptRounds_eq_reverse : encryptRounds = decryptRounds.reverse := rfl

theorem decrypt_encrypt (b : Block) (W : Schedule) : decrypt (encrypt b W) W = b := by
  have hfirst (S : StateMatrix) : addRoundKey (encryptLast W S) W 10 = shiftSub S := addRoundKey_addRoundKey ..
  have hlast (S : StateMatrix) : decryptLast W (shiftSub (addRoundKey S W 0)) = S :=
    calc addRoundKey (invShiftSub (shiftSub (addRoundKey S W 0))) W 0
      _ = S := by rw [invShiftSub_shiftSub, addRoundKey_addRoundKey]
  rw [decrypt, encrypt, toState_fromState, hfirst, decryptRounds_eq_reverse,
    foldl_reverse_cancel (decryptRound_encryptRound W), hlast, fromState_toState]

theorem encrypt_decrypt (b : Block) (W : Schedule) : encrypt (decrypt b W) W = b := by
  have hfirst (S : StateMatrix) : addRoundKey (decryptLast W S) W 0 = invShiftSub S := addRoundKey_addRoundKey ..
  have hlast (S : StateMatrix) : encryptLast W (invShiftSub (addRoundKey S W 10)) = S :=
    calc addRoundKey (shiftSub (invShiftSub (addRoundKey S W 10))) W 10
      _ = S := by rw [shiftSub_invShiftSub, addRoundKey_addRoundKey]
  rw [encrypt, decrypt, toState_fromState, hfirst, encryptRounds_eq_reverse,
    foldl_reverse_cancel (encryptRound_decryptRound W), hlast, fromState_toState]

/-! The commands that check two lengths (R221, R231 to R234). -/

theorem rejection_blockAndSchedule {c : Instr} (s : State)
    (hc : c.wellFormed = true ∧ lengthChecks c = [.blockLength, .scheduleLength]) :
    rejection c s =
      if s.blklen = 16 then (if s.rklen = 44 then none else some .invalidScheduleLength)
      else some .invalidBlockLength := by
  obtain ⟨hwf, hchecks⟩ := hc
  simp [rejection_wellFormed s hwf, hchecks, LengthCheck.error, Config.blockLength, Config.scheduleLength]

theorem rejection_keyAndBlock {c : Instr} (s : State)
    (hc : c.wellFormed = true ∧ lengthChecks c = [.keyLength, .blockLength]) :
    rejection c s =
      if s.keylen = 16 then (if s.blklen = 16 then none else some .invalidBlockLength)
      else some .invalidKeyLength := by
  obtain ⟨hwf, hchecks⟩ := hc
  simp [rejection_wellFormed s hwf, hchecks, LengthCheck.error, Config.keyLength, Config.blockLength]

/-- ENC and DEC, by the block they compute. -/
theorem exec_blockAndSchedule {c : Instr} {s : State} {B : Block} (hb : s.busy = false)
    (hc : c.wellFormed = true ∧ lengthChecks c = [.blockLength, .scheduleLength])
    (heffect : effectOf c s = { s with dout := B, matrix := toState B }) :
    (s.blklen = 16 → s.rklen = 44 →
      exec c s = .next { s with dout := B, matrix := toState B, status := 0x02, seq := .idle }) ∧
      (s.blklen ≠ 16 → exec c s = .next { s with status := 0x24 }) ∧
      (s.blklen = 16 → s.rklen ≠ 44 → exec c s = .next { s with status := 0x34 }) := by
  have hr := rejection_blockAndSchedule s hc
  refine ⟨fun hblk hrk => ?_, fun hblk => ?_, fun hblk hrk => ?_⟩
  · rw [exec_accepted hb (by rw [hr, if_pos hblk, if_pos hrk]), heffect, completeCommand_eq]
    rfl
  · exact exec_rejected hb (by rw [hr, if_neg hblk])
  · exact exec_rejected hb (by rw [hr, if_pos hblk, if_neg hrk])

/-- ENCK and DECK, by the block they compute. -/
theorem exec_keyAndBlock {c : Instr} {s : State} {B : Block} (hb : s.busy = false)
    (hc : c.wellFormed = true ∧ lengthChecks c = [.keyLength, .blockLength])
    (heffect : effectOf c s =
      { s with
        rk := expand s.key, rklen := Config.scheduleLength, rc := finalRoundConstant, dout := B, matrix := toState B }) :
    (s.keylen = 16 → s.blklen = 16 →
      exec c s = .next { s with
        rk := expand s.key, rklen := 44, rc := 0x6c, dout := B, matrix := toState B, status := 0x02, seq := .idle }) ∧
      (s.keylen ≠ 16 → exec c s = .next { s with status := 0x14 }) ∧
      (s.keylen = 16 → s.blklen ≠ 16 → exec c s = .next { s with status := 0x24 }) := by
  have hr := rejection_keyAndBlock s hc
  refine ⟨fun hkey hblk => ?_, fun hkey => ?_, fun hkey hblk => ?_⟩
  · rw [exec_accepted hb (by rw [hr, if_pos hkey, if_pos hblk]), heffect, completeCommand_eq]
    rfl
  · exact exec_rejected hb (by rw [hr, if_neg hkey])
  · exact exec_rejected hb (by rw [hr, if_pos hkey, if_neg hblk])

/-! A fused command is two commands in a row (R233, R234). -/

/-- No command's effect reads STATUS or SEQ, so it is the same before or after a completion. -/
theorem completeCommand_effectOf {c : Instr} (s : State) (hwf : c.wellFormed = true) :
    completeCommand (effectOf c (completeCommand s)) = completeCommand (effectOf c s) := by
  simp only [← applyMicroOps_microProgram _ hwf, completeCommand_applyMicroOps]
  rfl

/-- After EXPAND, RKLEN is 44, so a cipher command finds both its lengths right. -/
theorem exec_afterExpand {c : Instr} {s : State} (hblk : s.blklen = 16)
    (hc : c.wellFormed = true ∧ lengthChecks c = [.blockLength, .scheduleLength]) :
    exec c (completeCommand (expandEffect s)) = .next (completeCommand (effectOf c (expandEffect s))) := by
  have hr : rejection c (completeCommand (expandEffect s)) = none := by
    simp [rejection_blockAndSchedule _ hc, completeCommand_eq, expandEffect_eq, hblk, Config.scheduleLength]
  rw [exec_accepted (s := completeCommand (expandEffect s)) busyFlag_completed hr, completeCommand_effectOf _ hc.1]

theorem exec_fused_iff {fused c : Instr} {s t : State} (hkey : s.keylen = 16) (hblk : s.blklen = 16)
    (hfused : fused.wellFormed = true ∧ lengthChecks fused = [.keyLength, .blockLength])
    (hc : c.wellFormed = true ∧ lengthChecks c = [.blockLength, .scheduleLength])
    (heffect : effectOf fused s = effectOf c (expandEffect s)) :
    exec fused s = .next t ↔ ∃ m, exec .expand s = .next m ∧ exec c m = .next t := by
  cases hb : s.busy with
  | true =>
    have hrefused (i : Instr) : exec i s = .refused (.hostAccessWhileBusy 0x30) :=
      (exec_eq_runCommand i s).trans (runCommand_busy i _ hb)
    simp [hrefused]
  | false =>
    have hexpand : exec .expand s = .next (completeCommand (expandEffect s)) :=
      exec_accepted hb (by rw [rejection_expand, if_pos hkey])
    have hexec : exec fused s = .next (completeCommand (effectOf c (expandEffect s))) := by
      rw [exec_accepted hb (by rw [rejection_keyAndBlock s hfused, if_pos hkey, if_pos hblk]), heffect]
    simp [hexpand, hexec, exec_afterExpand hblk hc]

/-! The bytes that are accepted (R220, R221). -/

/-- A write to CMD with BUSY 0. -/
theorem step_submit {s : State} {v : Byte} {rest : List HostOp} (hb : s.busy = false) (hs : s.script = .wr 0x30 v :: rest) :
    step s = submitCommand v (s.withScript rest) :=
  (step_idle hb hs).trans (hostWrite_cmd v hb)

theorem step_submit_whole {s : State} {v : Byte} {rest : List HostOp} {c : Instr} (hb : s.busy = false)
    (hs : s.script = .wr 0x30 v :: rest) (hp : s.pacing = .whole) (hd : decode v = .command c) :
    step s = exec c (s.withScript rest) :=
  (step_submit hb hs).trans (submitCommand_whole hd hp)

theorem step_submit_stepped {s : State} {v : Byte} {rest : List HostOp} {c : Instr} {turns : List Agent}
    (hb : s.busy = false) (hs : s.script = .wr 0x30 v :: rest) (hp : s.pacing = .stepped turns)
    (hd : decode v = .command c) : step s = startCommand c (s.withScript rest) :=
  (step_submit hb hs).trans (submitCommand_stepped hd hp)

/-- R82: ARK's bytes are in a range with no other command's. -/
theorem arkByte_range (r : Fin 11) :
    (0x30 ≤ (encode (.ark (BitVec.ofNat 4 r.val))).toNat ∧ (encode (.ark (BitVec.ofNat 4 r.val))).toNat ≤ 0x3A) ∧
      encode (.ark (BitVec.ofNat 4 r.val)) ∉
        ([0x10, 0x20, 0x40, 0x50, 0x60, 0x70, 0x80, 0x90, 0xA0, 0xB0, 0xC0, 0xD0, 0xE0] : List Byte) := by
  revert r
  decide

theorem acceptedByte_ark (r : Fin 11) (s : State) :
    AcceptedByte (encode (.ark (BitVec.ofNat 4 r.val))) s ↔ s.rklen = 44 := by
  obtain ⟨hrange, hother⟩ := arkByte_range r
  simp only [List.mem_cons, List.not_mem_nil, not_or, BitVec.ofNat_eq_ofNat] at hother
  simp [AcceptedByte, hrange, hother]

/-- R221, command by command. -/
theorem acceptedByte_encode_iff {c : Instr} (s : State) (hwf : c.wellFormed = true) :
    AcceptedByte (encode c) s ↔ rejection c s = none := by
  cases c with
  | load => simp [AcceptedByte, encode, Instr.opcode, Instr.immediate, rejection_load]
  | ark r =>
    obtain ⟨round, rfl⟩ : ∃ round : Fin 11, r = BitVec.ofNat 4 round.val :=
      ⟨⟨r.toNat, by have := (wellFormed_ark_iff r).mp hwf; omega⟩, by simp⟩
    simp [acceptedByte_ark, rejection_ark]
  | expand => simp [AcceptedByte, encode, Instr.opcode, Instr.immediate, rejection_expand]
  | enc | dec =>
    simp [AcceptedByte, encode, Instr.opcode, Instr.immediate, rejection_blockAndSchedule _ ⟨hwf, rfl⟩, ite_eq_iff]
  | enck | deck =>
    simp [AcceptedByte, encode, Instr.opcode, Instr.immediate, rejection_keyAndBlock _ ⟨hwf, rfl⟩, ite_eq_iff]
  | store | sb | sr | mc | isb | isr | imc =>
    simp [AcceptedByte, encode, Instr.opcode, Instr.immediate, rejection_unchecked _ ⟨hwf, rfl⟩]

/-- R84, R221: no illegal byte is among those accepted. -/
theorem not_acceptedByte_of_illegal {v : Byte} {s : State} (h : IllegalByte v) : ¬ AcceptedByte v s := by
  simp only [IllegalByte, AcceptedByte, List.mem_cons, List.not_mem_nil, or_false] at h ⊢
  bv_omega

/-- The bytes accepted are those of the commands that nothing rejects. -/
theorem acceptedByte_iff (v : Byte) (s : State) :
    AcceptedByte v s ↔ ∃ c, decode v = .command c ∧ rejection c s = none := by
  cases hd : decode v with
  | command c =>
    obtain ⟨hwf, rfl⟩ := encode_decode hd
    simp [acceptedByte_encode_iff s hwf]
  | illegal why =>
    have hillegal : IllegalByte v := (illegalByte_iff v).mpr (by simp [hd])
    exact iff_of_false (not_acceptedByte_of_illegal hillegal) (by simp)

/-! One micro-step of the machine (R241, R223). -/

theorem step_advance {s : State} {c : Instr} {idx : Nat} {u : MicroOp} (hm : s.mover = .sequencer)
    (hseq : s.seq = .running c idx) (hu : (microProgram c)[idx]? = some u) (hlast : idx + 1 ≠ (microProgram c).length) :
    step s = .next { microEffect u s with seq := .running c (idx + 1), pacing := s.pacing.afterTurn } := by
  have hmicro := microStep_advance (s := s.withPacing s.pacing.afterTurn) hseq hu hlast
  rw [step_sequencer (busy_of_mover_sequencer hm) hm, hmicro, microEffect_withPacing]
  rfl

theorem step_complete {s : State} {c : Instr} {idx : Nat} {u : MicroOp} (hm : s.mover = .sequencer)
    (hseq : s.seq = .running c idx) (hu : (microProgram c)[idx]? = some u) (hlast : idx + 1 = (microProgram c).length) :
    step s = .next { microEffect u s with status := 0x02, seq := .idle, pacing := s.pacing.afterTurn } := by
  have hmicro := microStep_last (s := s.withPacing s.pacing.afterTurn) hseq hu hlast
  rw [step_sequencer (busy_of_mover_sequencer hm) hm, hmicro, microEffect_withPacing]
  rfl

/-! A running command ends (R246). -/

/-- No turn is the host's while BUSY is 1: it has nothing to do, or the pacing gives it no turn. -/
def NoHostTurn (s : State) : Prop := s.script = [] ∨ s.pacing = .stepped [] ∨ s.pacing = .whole

theorem NoHostTurn.mover {s : State} (h : NoHostTurn s) (hb : s.busy = true) : s.mover = .sequencer := by
  obtain hs | hp | hp := h
  · exact mover_script_nil hb hs
  · exact mover_stepped_nil hb hp
  · exact mover_whole hb hp

theorem NoHostTurn.of_afterTurn {s t : State} (h : NoHostTurn s) (hs : t.script = s.script)
    (hp : t.pacing = s.pacing.afterTurn) : NoHostTurn t := by
  obtain h | h | h := h
  · exact .inl (hs.trans h)
  · exact .inr (.inl (by rw [hp, h, Pacing.afterTurn]))
  · exact .inr (.inr (by rw [hp, h, Pacing.afterTurn]))

/-- Command `c` has so many micro-steps left; with none left it is complete (R223). -/
def MicroStepsLeft (c : Instr) : Nat → State → Prop
  | 0, s => s.status = 0x02 ∧ s.seq = .idle
  | n + 1, s => Inv s ∧ ∃ idx, s.seq = .running c idx ∧ idx + (n + 1) = (microProgram c).length

theorem microStepsLeft_of_running {s : State} {c : Instr} {idx : Nat} (hinv : Inv s) (hseq : s.seq = .running c idx) :
    MicroStepsLeft c ((microProgram c).length - idx) s := by
  obtain ⟨-, hidx, -⟩ := hinv.running hseq
  obtain ⟨n, hn⟩ := Nat.exists_eq_add_of_lt hidx
  rw [show (microProgram c).length - idx = n + 1 by omega]
  exact ⟨hinv, idx, hseq, by omega⟩

theorem MicroStepsLeft.busy {s : State} {c : Instr} {n : Nat} (h : MicroStepsLeft c (n + 1) s) : s.busy = true := by
  obtain ⟨hinv, idx, hseq, -⟩ := h
  by_contra hb
  simp [hinv.seq_of_idle (Bool.eq_false_iff.mpr hb)] at hseq

/-- The sequencer's turn takes one of the micro-steps left. -/
theorem MicroStepsLeft.sequencer {s : State} {c : Instr} {n : Nat} (h : MicroStepsLeft c (n + 1) s)
    (hm : s.mover = .sequencer) :
    ∃ t, step s = .next t ∧ MicroStepsLeft c n t ∧ t.script = s.script ∧ t.pacing = s.pacing.afterTurn := by
  obtain ⟨hinv, idx, hseq, hlen⟩ := h
  have hu : (microProgram c)[idx]? = some _ := List.getElem?_eq_getElem (by omega)
  cases n with
  | zero => exact ⟨_, step_complete hm hseq hu hlen, ⟨rfl, rfl⟩, microEffect_script s _, rfl⟩
  | succ n =>
    have hstep := step_advance hm hseq hu (by omega)
    exact ⟨_, hstep, ⟨(step_next hstep).keeps_inv hinv, idx + 1, rfl, by omega⟩, microEffect_script s _, rfl⟩

/-- Where no turn is the host's, every step takes one of the micro-steps left. -/
theorem MicroStepsLeft.run {s : State} {c : Instr} (m : Nat) {n : Nat} (h : MicroStepsLeft c (m + n) s)
    (hno : NoHostTurn s) : ∃ t, Sys2Proof.core.run m s = .next t ∧ MicroStepsLeft c n t := by
  induction m generalizing s with
  | zero => exact ⟨s, rfl, by rwa [Nat.zero_add] at h⟩
  | succ m ih =>
    rw [Nat.succ_add] at h
    obtain ⟨t, hstep, ht, hs, hp⟩ := h.sequencer (hno.mover h.busy)
    obtain ⟨t', hrun, ht'⟩ := ih ht (hno.of_afterTurn hs hp)
    exact ⟨t', (run_succ m hstep).trans hrun, ht'⟩

/-- R91: the host's operations left are reads of STATUS and `WAIT`. -/
def OnlyPolls (s : State) : Prop := ∀ op ∈ s.script, op = .rd 0x31 ∨ op = .wait

/-- A poll made while the command runs uses up one turn of the pacing and none of the micro-steps left. -/
theorem MicroStepsLeft.poll {s : State} {c : Instr} {n : Nat} (h : MicroStepsLeft c (n + 1) s) (hpolls : OnlyPolls s)
    (hm : s.mover = .host) :
    ∃ t, step s = .next t ∧ MicroStepsLeft c (n + 1) t ∧ OnlyPolls t ∧ t.pacing = s.pacing.afterTurn := by
  have hb := h.busy
  obtain ⟨hinv, idx, hseq, hlen⟩ := h
  obtain ⟨op, rest, hs⟩ := mover_host_busy hb hm
  have hop : op = .rd 0x31 ∨ op = .wait := hpolls op (hs ▸ List.mem_cons_self)
  obtain rfl | rfl := hop
  · have hstep := step_read_status_busy hb hm hs
    exact ⟨_, hstep, ⟨(step_next hstep).keeps_inv hinv, idx, hseq, hlen⟩,
      fun op hmem => hpolls op (hs ▸ List.mem_cons_of_mem _ hmem), rfl⟩
  · have hstep := step_wait_busy hb hm hs
    exact ⟨_, hstep, ⟨(step_next hstep).keeps_inv hinv, idx, hseq, hlen⟩, hpolls, rfl⟩

/-- Where the host only polls, a step takes one of the micro-steps left or is a poll; either way it uses up a turn. -/
theorem MicroStepsLeft.step_polling {s : State} {c : Instr} {k : Nat} (h : MicroStepsLeft c (k + 1) s)
    (hpolls : OnlyPolls s) :
    ∃ t k', step s = .next t ∧ MicroStepsLeft c k' t ∧ (k' = k ∨ k' = k + 1) ∧ OnlyPolls t ∧
      t.pacing = s.pacing.afterTurn := by
  cases hm : s.mover with
  | sequencer =>
    obtain ⟨t, hstep, ht, hscript, hpacing⟩ := h.sequencer hm
    exact ⟨t, k, hstep, ht, .inl rfl, by rwa [OnlyPolls, hscript], hpacing⟩
  | host =>
    obtain ⟨t, hstep, ht, hpolls', hpacing⟩ := h.poll hpolls hm
    exact ⟨t, k + 1, hstep, ht, .inr rfl, hpolls', hpacing⟩

/-- So the command completes within as many steps as there are micro-steps and turns left. -/
theorem MicroStepsLeft.run_polling {s : State} {c : Instr} {k : Nat} {turns : List Agent} (h : MicroStepsLeft c k s)
    (hpolls : OnlyPolls s) (hp : s.pacing = .stepped turns) :
    ∃ n, k ≤ n ∧ n ≤ k + turns.length ∧ ∃ t, Sys2Proof.core.run n s = .next t ∧ MicroStepsLeft c 0 t := by
  induction turns generalizing s k with
  | nil => exact ⟨k, le_rfl, le_rfl, h.run k (.inr (.inl hp))⟩
  | cons turn turns ih =>
    cases k with
    | zero => exact ⟨0, le_rfl, Nat.zero_le _, s, rfl, h⟩
    | succ k =>
      obtain ⟨t, k', hstep, ht, hk', hpolls', hpacing⟩ := h.step_polling hpolls
      obtain ⟨n, hkn, hn, t', hrun, ht'⟩ := ih ht hpolls' (by rw [hpacing, hp, Pacing.afterTurn])
      exact ⟨n + 1, by omega, by simp only [List.length_cons]; omega, t', (run_succ n hstep).trans hrun, ht'⟩

end Sys2Proof.Machine

namespace Sys2Proof.Proofs

open Sys2Proof Sys2Proof.Machine Sys2Proof.Claims

/-- Settles O4: a byte is accepted exactly when it decodes to a command that nothing rejects, and any other is answered by
error entry. -/
theorem acceptanceStartsSequencer : Obligations.AcceptanceStartsSequencer := by
  unfold Obligations.AcceptanceStartsSequencer
  intro s turns v rest hb hp hs
  rw [acceptedByte_iff]
  constructor
  · rintro ⟨c, hd, hr⟩
    exact ⟨c, hd, (step_submit_stepped hb hs hp hd).trans (startCommand_accepted (s := s.withScript rest) hb hr)⟩
  · intro hnot
    cases hd : decode v with
    | illegal why => exact ⟨.illegalCommand, (step_submit hb hs).trans (submitCommand_illegal hd)⟩
    | command c =>
      obtain ⟨e, he⟩ := Option.ne_none_iff_exists'.mp fun hr => hnot ⟨c, hd, hr⟩
      exact ⟨e, (step_submit_stepped hb hs hp hd).trans (startCommand_rejected (s := s.withScript rest) hb he)⟩

/-- Settles O19: ENC's effect is `encrypt`, and it checks BLKLEN, then RKLEN. -/
theorem encResult : Obligations.EncResult := by
  unfold Obligations.EncResult
  exact ⟨rfl, fun s hb => exec_blockAndSchedule hb ⟨rfl, rfl⟩ (encEffect_eq s)⟩

/-- Settles O20: DEC's effect is `decrypt`, and it checks BLKLEN, then RKLEN. -/
theorem decResult : Obligations.DecResult := by
  unfold Obligations.DecResult
  exact ⟨rfl, fun s hb => exec_blockAndSchedule hb ⟨rfl, rfl⟩ (decEffect_eq s)⟩

/-- Settles O21: the effect is EXPAND's and then the cipher's with the new schedule, and both commands check KEYLEN, then
BLKLEN. -/
theorem fusedCommandsResult : Obligations.FusedCommandsResult := by
  unfold Obligations.FusedCommandsResult
  refine ⟨rfl, rfl, fun s hb => ?_⟩
  obtain ⟨henck, henckKey, henckBlock⟩ := exec_keyAndBlock (c := .enck) hb ⟨rfl, rfl⟩ (enckEffect_eq s)
  obtain ⟨hdeck, hdeckKey, hdeckBlock⟩ := exec_keyAndBlock (c := .deck) hb ⟨rfl, rfl⟩ (deckEffect_eq s)
  exact ⟨fun hkey hblk => ⟨henck hkey hblk, hdeck hkey hblk⟩, fun hkey => ⟨henckKey hkey, hdeckKey hkey⟩,
    fun hkey hblk => ⟨henckBlock hkey hblk, hdeckBlock hkey hblk⟩⟩

/-- Settles O22: EXPAND leaves RKLEN 44, so that the cipher command after it is accepted, and neither effect reads what a
completion writes. While BUSY is 1 both sides are false. -/
theorem fusedIsExpandThenCipher : Obligations.FusedIsExpandThenCipher := by
  unfold Obligations.FusedIsExpandThenCipher
  exact fun s t hkey hblk => ⟨exec_fused_iff hkey hblk ⟨rfl, rfl⟩ ⟨rfl, rfl⟩ rfl,
    exec_fused_iff hkey hblk ⟨rfl, rfl⟩ ⟨rfl, rfl⟩ rfl⟩

/-- Settles O23: the loop's state after each of its turns, and then the last round's. -/
theorem encryptSequence : Obligations.EncryptSequence := by
  unfold Obligations.EncryptSequence
  refine fun blk W => ⟨encryptState blk W, rfl, fun r h1 h9 => ?_, rfl, encrypt_eq_encryptLast blk W⟩
  have hprev : (r - 1).val = r.val - 1 := Fin.val_sub_one_of_ne_zero (by omega)
  rw [encryptState_of_le h9, encryptState_of_le (by omega), hprev]
  exact encryptUpTo_round blk W h1 h9

/-- Settles O24: the loop's state after each of its turns, which count down, and then the last step's. -/
theorem decryptSequence : Obligations.DecryptSequence := by
  unfold Obligations.DecryptSequence
  refine fun blk W => ⟨decryptState blk W, rfl, fun r h1 h9 => ?_, rfl, decrypt_eq_decryptLast blk W⟩
  have hprev : (r + 1).val = r.val + 1 := Fin.val_add_eq_of_add_lt (b := 1) (by simp only [Fin.val_one]; omega)
  rw [decryptState_of_ge h1, decryptState_of_ge (by omega), hprev]
  exact decryptUpTo_round blk W h1 h9

/-- Settles O25: each round of the one function takes back the round of the same key of the other. -/
theorem decryptInvertsEncrypt : Obligations.DecryptInvertsEncrypt := by
  unfold Obligations.DecryptInvertsEncrypt
  exact ⟨fun b W => ⟨decrypt_encrypt b W, encrypt_decrypt b W⟩,
    fun b k => ⟨decrypt_encrypt b (expand k), encrypt_decrypt b (expand k)⟩⟩

/-- Settles O37: the micro-operations of a legal command, in a row, are its whole effect. -/
theorem microStepsAgreeWithBigStep : Obligations.MicroStepsAgreeWithBigStep := by
  unfold Obligations.MicroStepsAgreeWithBigStep
  exact fun c s hb hr => ⟨_, exec_accepted hb hr, microSteps_acceptCommand hr⟩

/-- Settles O38: every step takes one of the micro-steps left, or is a poll and uses up one of the turns left. -/
theorem runningCommandTerminates : Obligations.RunningCommandTerminates := by
  unfold Obligations.RunningCommandTerminates
  intro s c idx hinv hseq
  have hleft := microStepsLeft_of_running hinv hseq
  refine ⟨fun hno => ⟨fun m hm => ?_, hleft.run _ (n := 0) hno⟩, fun turns hp hpolls => hleft.run_polling hpolls hp⟩
  obtain ⟨n, hn⟩ := Nat.exists_eq_add_of_lt hm
  obtain ⟨u, hrun, hu⟩ := MicroStepsLeft.run m (n := n + 1) (hn ▸ hleft) hno
  exact ⟨u, hrun, hu.busy⟩

/-- Settles O41: SEQ of a good state names a micro-operation, and no data effect touches the pacing. -/
theorem microStepAdvancesByOne : Obligations.MicroStepAdvancesByOne := by
  unfold Obligations.MicroStepAdvancesByOne
  intro s c idx hinv hseq hm
  obtain ⟨-, hidx, -⟩ := hinv.running hseq
  have hu := List.getElem?_eq_getElem hidx
  exact ⟨_, hu, fun hlast => step_advance hm hseq hu hlast.ne, step_complete hm hseq hu⟩

/-- Settles O3: the write submits the byte, which the decoder reads back as the command. -/
theorem stepRunsDecodedCommand : Obligations.StepRunsDecodedCommand := by
  unfold Obligations.StepRunsDecodedCommand
  refine ⟨fun s v rest c hb hp hs hd => step_submit_whole hb hs hp hd, fun s c hb hwf => ?_⟩
  have hfetch : s.withFetchWord 8 (encode c).toNat =
      { s with pacing := .whole, script := .wr 0x30 (encode c) :: s.script } := by
    simp [State.withFetchWord, State.withCommandByte, State.madeIdle, hb, State.withPacing, State.withScript]
  rw [hfetch]
  exact step_submit_whole hb rfl rfl (decode_encode hwf)

end Sys2Proof.Proofs
end

section
/-!
PROOFS. The errors (60_exceptions.md): which error rejects a command (R262 to R267) and which a byte written to CMD,
that a rejection is told from every other answer by its STATUS (R268), and that the next command does not see it (R269).
-/

namespace Sys2Proof.Machine

open Sys2Proof

/-! The cause of each error (R262 to R267). -/

/-- R266, with R267's priority: a legal command `c` raises the error in state `s`. -/
def HasCause (c : Instr) (s : State) : CommandError → Prop
  | .illegalCommand => False
  | .invalidKeyLength => (c = .expand ∨ c = .enck ∨ c = .deck) ∧ s.keylen ≠ 16
  | .invalidBlockLength =>
    ((c = .load ∨ c = .enc ∨ c = .dec) ∨ ((c = .enck ∨ c = .deck) ∧ s.keylen = 16)) ∧ s.blklen ≠ 16
  | .invalidScheduleLength =>
    ((∃ r, c = .ark r) ∨ ((c = .enc ∨ c = .dec) ∧ s.blklen = 16)) ∧ s.rklen ≠ 44

/-- R221, turned by error. -/
theorem rejection_eq_some_iff {c : Instr} (s : State) (e : CommandError) (hwf : c.wellFormed = true) :
    rejection c s = some e ↔ HasCause c s e := by
  cases c with
  | load => cases e <;> simp [HasCause, rejection_load]
  | ark r =>
    cases e <;> simp [HasCause, rejection_wellFormed s hwf, lengthChecks, LengthCheck.error, Config.scheduleLength]
  | expand => cases e <;> simp [HasCause, rejection_expand]
  | enc | dec => cases e <;> simp [HasCause, rejection_blockAndSchedule s ⟨hwf, rfl⟩, ite_eq_iff]
  | enck | deck => cases e <;> simp [HasCause, rejection_keyAndBlock s ⟨hwf, rfl⟩, ite_eq_iff]
  | store | sb | sr | mc | isb | isr | imc => cases e <;> simp [HasCause, rejection_unchecked s ⟨hwf, rfl⟩]

/-! The bytes (R82). -/

/-- The decoder takes a command from its own byte and from no other. -/
theorem decode_iff_eq_encode {c : Instr} (v : Byte) (hwf : c.wellFormed = true) :
    decode v = .command c ↔ v = encode c :=
  ⟨fun hd => (encode_decode hd).right.symm, fun hv => hv ▸ decode_encode hwf⟩

@[simp] theorem decode_eq_load_iff (v : Byte) : decode v = .command .load ↔ v = 0x10 := decode_iff_eq_encode v rfl
@[simp] theorem decode_eq_expand_iff (v : Byte) : decode v = .command .expand ↔ v = 0xA0 := decode_iff_eq_encode v rfl
@[simp] theorem decode_eq_enc_iff (v : Byte) : decode v = .command .enc ↔ v = 0xB0 := decode_iff_eq_encode v rfl
@[simp] theorem decode_eq_dec_iff (v : Byte) : decode v = .command .dec ↔ v = 0xC0 := decode_iff_eq_encode v rfl
@[simp] theorem decode_eq_enck_iff (v : Byte) : decode v = .command .enck ↔ v = 0xD0 := decode_iff_eq_encode v rfl
@[simp] theorem decode_eq_deck_iff (v : Byte) : decode v = .command .deck ↔ v = 0xE0 := decode_iff_eq_encode v rfl

/-- ARK's bytes are 0x30 to 0x3A. -/
@[simp] theorem exists_decode_ark_iff (v : Byte) :
    (∃ r, decode v = .command (.ark r)) ↔ 0x30 ≤ v.toNat ∧ v.toNat ≤ 0x3A := by
  have hplain (r : BitVec 4) : plainCommand (opField v) ≠ some (.ark r) := by
    intro h
    obtain ⟨hop, -, -⟩ := plainCommand_eq_some h
    rw [← hop] at h
    cases h
  calc (∃ r, decode v = .command (.ark r))
    _ ↔ opField v = 0x3#4 ∧ immField v ≤ 10#4 := by simp [decode_eq_command_iff, hplain]
    _ ↔ v.toNat / 16 = 0x3 ∧ v.toNat % 16 ≤ 10 := by
      simp [BitVec.toNat_inj.symm, BitVec.le_def, toNat_opField, toNat_immField]
    _ ↔ 0x30 ≤ v.toNat ∧ v.toNat ≤ 0x3A := by omega

/-! Rejection of a byte written to CMD, under any pacing (R220, R268). -/

theorem submitCommand_rejected {s : State} {v : Byte} {e : CommandError} (hb : s.busy = false)
    (he : ByteRejected s v e) : submitCommand v s = .next (raiseError e s) := by
  obtain ⟨why, hd, rfl⟩ | ⟨c, hd, hr⟩ := he
  · exact submitCommand_illegal hd
  · cases hp : s.pacing with
    | whole => exact (submitCommand_whole hd hp).trans (exec_rejected hb hr)
    | stepped turns => exact (submitCommand_stepped hd hp).trans (startCommand_rejected hb hr)

theorem submitCommand_eq_error_iff {s : State} (v : Byte) (e : CommandError) (hb : s.busy = false) :
    submitCommand v s = .next { s with status := errorStatus e } ↔ ByteRejected s v e := by
  refine ⟨fun h => ?_, submitCommand_rejected hb⟩
  obtain ⟨e', he', heq⟩ | ⟨c, -, -, ⟨-, heq⟩ | ⟨-, heq⟩⟩ := submitCommand_next h
  · rwa [errorStatus_injective (congrArg State.status heq)]
  · exact absurd (congrArg State.status heq) (errorStatus_ne_completed e)
  · exact absurd (congrArg (fun t => busyFlag t.status) heq) (by simp [acceptCommand])

theorem step_eq_error_iff {s : State} {v : Byte} {rest : List HostOp} (e : CommandError) (hb : s.busy = false)
    (hs : s.script = .wr 0x30 v :: rest) :
    step s = .next { s with script := rest, status := errorStatus e } ↔ ByteRejected s v e := by
  rw [step_submit hb hs]
  exact submitCommand_eq_error_iff (s := s.withScript rest) v e hb

/-- A length's error comes from the commands that meet its cause: no illegal byte raises it. -/
theorem exists_hasCause_iff_step {s : State} {v : Byte} {rest : List HostOp} {e : CommandError}
    (he : e ≠ .illegalCommand) (hb : s.busy = false) (hs : s.script = .wr 0x30 v :: rest) :
    (∃ c, decode v = .command c ∧ HasCause c s e) ↔
      step s = .next { s with script := rest, status := errorStatus e } := by
  simp only [step_eq_error_iff e hb hs, ByteRejected, he, and_false, exists_false, false_or]
  exact exists_congr fun c => and_congr_right fun hd => (rejection_eq_some_iff s e (encode_decode hd).1).symm

/-! Error entry and the next command (R269). -/

theorem exec_raiseError (c : Instr) (e : CommandError) {s : State} (hb : s.busy = false) :
    exec c (raiseError e s) = exec c s := by
  have hb' : (raiseError e s).busy = false := busyFlag_error e
  have hlengths : rejection c (raiseError e s) = rejection c s := rejection_congr c rfl rfl rfl
  cases hr : rejection c s with
  | some e' => exact (exec_rejected hb' (hlengths.trans hr)).trans (exec_rejected hb hr).symm
  | none =>
    obtain ⟨hwf, -⟩ := rejection_eq_none_iff.mp hr
    have hcompleted : completeCommand (raiseError e s) = completeCommand s := rfl
    rw [exec_accepted hb' (hlengths.trans hr), exec_accepted hb hr, ← completeCommand_effectOf (raiseError e s) hwf,
      hcompleted, completeCommand_effectOf s hwf]

end Sys2Proof.Machine

namespace Sys2Proof.Proofs

open Sys2Proof Sys2Proof.Machine

/-- Settles O6: a rejected command answers `raiseError`'s state, whatever its effect. -/
theorem errorEntryChangesStatusOnly : Obligations.ErrorEntryChangesStatusOnly := by
  unfold Obligations.ErrorEntryChangesStatusOnly
  exact ⟨fun c s e hb hr => exec_rejected hb hr, rfl, rfl, rfl, rfl⟩

/-- Settles O7: STATUS 0x14 answers the commands that meet InvalidKeyLength's cause, and each of them has one byte. -/
theorem invalidKeyLengthCause : Obligations.InvalidKeyLengthCause := by
  unfold Obligations.InvalidKeyLengthCause
  intro s v rest hb hs
  refine Iff.trans ?_ (exists_hasCause_iff_step (e := .invalidKeyLength) (by decide) hb hs)
  simp [HasCause, or_and_right, and_or_left, exists_or]

/-- Settles O8: STATUS 0x24 answers the commands that meet InvalidBlockLength's cause, and each of them has one byte. -/
theorem invalidBlockLengthCause : Obligations.InvalidBlockLengthCause := by
  unfold Obligations.InvalidBlockLengthCause
  intro s v rest hb hs
  refine Iff.trans ?_ (exists_hasCause_iff_step (e := .invalidBlockLength) (by decide) hb hs)
  simp [HasCause, or_and_right, and_or_left, exists_or, and_assoc]

/-- Settles O9: STATUS 0x34 answers the commands that meet InvalidScheduleLength's cause; ARK's have eleven bytes, the
others one each. -/
theorem invalidScheduleLengthCause : Obligations.InvalidScheduleLengthCause := by
  unfold Obligations.InvalidScheduleLengthCause
  intro s v rest hb hs
  refine Iff.trans ?_ (exists_hasCause_iff_step (e := .invalidScheduleLength) (by decide) hb hs)
  simp [HasCause, or_and_right, and_or_left, exists_or, and_assoc]

/-- Settles O10: validation reads the lengths, which an error leaves, and no effect reads STATUS. -/
theorem errorIsNotSticky : Obligations.ErrorIsNotSticky := by
  unfold Obligations.ErrorIsNotSticky
  exact fun c s e hb => ⟨exec_raiseError c e hb, exec_answers_of_idle c hb⟩

end Sys2Proof.Proofs
end

section
/-!
PROOFS. Reset and hazards (70_reset_and_hazards.md): the host's accesses while a command runs (R305), and a reset on the
host's turn, whether a command runs or not (R300 to R302).
-/

namespace Sys2Proof.Machine

open Sys2Proof Sys2Proof.Claims

theorem step_write_busy {s : State} {a v : Byte} {rest : List HostOp} (hb : s.busy = true) (hm : s.mover = .host)
    (hs : s.script = .wr a v :: rest) : step s = .refused (.hostAccessWhileBusy a) := by
  rw [step_host hm hs]
  exact hostWrite_busy a v ((useTurn_busy s).trans hb)

/-- The draw of RESET_DATA depends on the core, and on how many resets there were, but not on the outside world. -/
theorem nextResetData_outside (s : State) (p : Pacing) (ops : List HostOp) :
    ((s.withPacing p).withScript ops).nextResetData = s.nextResetData := rfl

theorem sameCore_applyReset (s : State) :
    SameCore (applyReset s) (State.afterReset s.nextResetData (s.resets + 1)) := by
  rw [applyReset_eq]
  simp only [SameCore, and_self]

/-- A reset on the host's turn, whatever BUSY is. -/
theorem step_rst {s : State} {rest : List HostOp} (hm : s.mover = .host) (hs : s.script = .rst :: rest) :
    step s = .next (applyReset (s.useTurn.withScript rest)) := step_host hm hs

end Sys2Proof.Machine

namespace Sys2Proof.Proofs

open Sys2Proof Sys2Proof.Machine Sys2Proof.Claims

/-- Settles O50: on the host's turn the step is its operation, and STATUS alone has a meaning while BUSY is 1. -/
theorem busyAccessRefused : Obligations.BusyAccessRefused := by
  unfold Obligations.BusyAccessRefused
  exact fun s a v rest hb hm => ⟨step_read_status_busy hb hm, step_write_busy hb hm, step_read_busy hb hm⟩

/-- Settles O57: `applyReset` reads the core for its draw of RESET_DATA alone, so that a running command leaves no trace
but there, and the turn used up is the pacing's. -/
theorem resetAtAnyTime : Obligations.ResetAtAnyTime := by
  unfold Obligations.ResetAtAnyTime
  intro s rest hm hs
  obtain ⟨p, hp⟩ := useTurn_eq_withPacing s
  have hstep := step_rst hm hs
  rw [hp] at hstep
  have hcore := sameCore_applyReset ((s.withPacing p).withScript rest)
  rw [nextResetData_outside] at hcore
  exact ⟨_, hstep, hcore, rfl, rfl, rfl, rfl, rfl, rfl, rfl, rfl⟩

end Sys2Proof.Proofs
end
